-- ==== Sys2Proof/Word.lean ====
section
/-! DEFINITION. The word types of the block (spec/00_scope.md R8): bytes, pixel words, requester identifiers. -/

namespace Sys2Proof

/-- One byte, bit 0 the least significant bit (R8). -/
abbrev Byte := BitVec 8

/-- One 32-bit pixel word (20_memory.md R52). -/
abbrev Word := BitVec 32

/-- `REQ`, the type of requester identifiers: "any type with decidable equality" (00_scope.md R6).
DESIGN CHOICE (log 7): natural numbers. Safe: every finite or countable choice embeds. -/
abbrev Req := Nat

end Sys2Proof
end

