-- ==== Sys2Proof/Syntax.lean ====
section
/-! DEFINITION. The instructions: one constructor per row of spec/opcode_table.json (30_encoding.md R95), and the
forms in which their words are handed over. -/

namespace Sys2Proof

/-- The nine rows of the opcode table. A host command carries its requester (30_encoding.md R90). -/
inductive Instr where
  /-- INIT, host opcode `001` (42_display_controller.md R142). -/
  | init (r : Req)
  /-- REFRESH, host opcode `010` (43_refresh_coordinator.md R170). -/
  | refresh (r : Req)
  /-- BLANK, host opcode `011` (42_display_controller.md R146). -/
  | blank (r : Req)
  /-- UNBLANK, host opcode `100` (42_display_controller.md R147). -/
  | unblank (r : Req)
  /-- DETACH, host opcode `101` (42_display_controller.md R150). -/
  | detach (r : Req)
  /-- SEND_LINE, a 16-bit line index (41_line_framer.md R120, R129). -/
  | sendLine (line : BitVec 16)
  /-- ENCODE_ROW, the row index (40_pixel_encoder.md R105). -/
  | encodeRow (y : Nat)
  /-- TRAILER, the two zero bytes of a payload (30_encoding.md R86). -/
  | trailer
  /-- ALL_CLEAR, the one-byte serial command (42_display_controller.md R152). -/
  | allClear
  deriving DecidableEq, Repr

/-- The five host commands (30_encoding.md R90). -/
inductive HostOp where
  | init | refresh | blank | unblank | detach
  deriving DecidableEq, Repr

/-- A host command issued by a requester, as an instruction. -/
def HostOp.toInstr (r : Req) : HostOp → Instr
  | .init => .init r
  | .refresh => .refresh r
  | .blank => .blank r
  | .unblank => .unblank r
  | .detach => .detach r

/-- What the words of an instruction are, by format (30_encoding.md R80). -/
inductive Code where
  /-- F6: three opcode bits and the requester beside them (R90). -/
  | port (r : Req) (op : BitVec 3)
  /-- F1 header, F2 or F4: bytes in transmission order (R81, R86, R88). -/
  | wire (bytes : List Byte)
  /-- ENCODE_ROW has no encoding "of its own" (40_pixel_encoder.md R105): the sequencer names the row. -/
  | row (y : Nat)
  deriving DecidableEq, Repr

/-- Why words are no instruction. Every rejection has its name. -/
inductive DecodeError where
  /-- Host opcodes 0, 6 and 7 (30_encoding.md R92 (a)). -/
  | reservedOpcode (op : BitVec 3)
  /-- A seven-byte header whose first byte is not 0x01 (R92 (c)). -/
  | modeByte (b : Byte)
  /-- A header whose bytes 1 to 4 are not all zero (R83, R92 (d)). -/
  | reservedBytes
  /-- A header whose byte 5 has one of bits 7 to 2 set (R84, R92 (d)). -/
  | addressHigh (b : Byte)
  /-- A one-byte frame other than 0x08 (R92 (c)). -/
  | commandByte (b : Byte)
  /-- A two-byte trailer that is not zero (R86). -/
  | trailerBytes
  /-- A byte string of a length that no format has (R80). -/
  | frameLength (n : Nat)
  /-- A row index outside 0 to 239 (40_pixel_encoder.md R105). -/
  | rowIndex (y : Nat)
  deriving DecidableEq, Repr

end Sys2Proof
end

