-- ==== Sys2Proof/Machine/State.lean ====
section
/-! DEFINITION. The state of the block as plain data: the tuple of 10_state.md R20, the primitive in flight (R35 (b)),
the locals of the operation that runs, and the block's inputs and outputs. -/

namespace Sys2Proof.Machine

/-- The four control lines (10_state.md R21). -/
inductive Line where
  | chipSelect
  | comInversionInput
  | displayEnable
  | comInversionModeSelect
  deriving DecidableEq, Repr

/-- `CTL`, the last level asked of each line; low and deassert are `false` (10_state.md R21, R22). -/
structure Ctl where
  chipSelect : Bool
  comInversionInput : Bool
  displayEnable : Bool
  comInversionModeSelect : Bool
  deriving DecidableEq, Repr

/-- `PSTATE`, the display power state: exactly five values (10_state.md R23). -/
inductive PState where
  | uninitialized
  | initializing
  | active
  | blanked
  | off
  deriving DecidableEq, Repr

/-- `LOCK`, the serialization lock (10_state.md R25). -/
inductive Lock where
  | free
  | held (r : Req)
  deriving DecidableEq, Repr

/-- The two operations that wait for the lock (10_state.md R26). -/
inductive WaitOp where
  | refresh
  | detach
  deriving DecidableEq, Repr

/-- Which top-level operation is running (10_state.md R29). -/
inductive SeqUnit where
  | idle
  | init
  | refresh
  | detach
  deriving DecidableEq, Repr

/-- The eight steps of INIT, "1 to 8 as numbered in" 42_display_controller.md R142 (10_state.md R29). -/
inductive InitStep where
  /-- Step 1. -/
  | modeSelectLow
  /-- Step 2. -/
  | displayLow
  /-- Step 3. -/
  | settle
  /-- Step 4. -/
  | displayHigh
  /-- Step 5. -/
  | csAssert
  /-- Step 6. -/
  | allClear
  /-- Step 7. -/
  | csDeassert
  /-- Step 8. -/
  | clearWait
  deriving DecidableEq, Repr

/-- The two calls of DETACH's sequence (42_display_controller.md R150). 10_state.md R29 gives the positions inside `Detach`
no names: DESIGN CHOICE (log 6). -/
inductive DetachStep where
  | displayLow
  | csLow
  deriving DecidableEq, Repr

/-- The position inside that operation's fixed sequence (10_state.md R29): 1 to 8 for `Init`, six for `Refresh`, two for
`Detach`; `start` is the "-" of R36. -/
inductive SeqStep where
  | start
  | initStep (k : InitStep)
  | encode
  | csAssert
  | txHeader
  | txPayload
  | csDeassert
  | gap
  | detachStep (k : DetachStep)
  deriving DecidableEq, Repr

/-- `SEQ = (unit, step, LN, PXI)`, the program-counter analogue; "a model should use bounded naturals" for `LN`, 0 to 239,
and `PXI`, 0 to 399 (10_state.md R29). -/
structure Seq where
  unit : SeqUnit
  step : SeqStep
  ln : Fin 240
  pxi : Fin 400
  deriving DecidableEq, Repr

/-- `STATUS`, the result code (10_state.md R30; 30_encoding.md R91). -/
inductive Status where
  | ok
  | invalidArgument
  | resourceExhausted
  | transportFailure
  | controlLineFailure
  deriving DecidableEq, Repr

/-- The failure policy (10_state.md R31). -/
inductive Policy where
  | bestEffort
  | failFast
  deriving DecidableEq, Repr

/-- What a transport call answered: success, or failure after `sent` of its bytes reached the wire
(`TX_PREFIX`, 41_line_framer.md R132). -/
inductive TxResult where
  | ok
  | fail (sent : Nat)
  deriving DecidableEq, Repr

/-- The environment's answer to one `CtlSet`, or no answer for ever (60_exceptions.md R198). -/
inductive CtlAnswer where
  | ok
  | fail
  | never
  deriving DecidableEq, Repr

/-- The environment's answer to one `Tx`, or no answer for ever (60_exceptions.md R198). -/
inductive TxAnswer where
  | ok
  | fail (sent : Nat)
  | never
  deriving DecidableEq, Repr

/-- A sequence of environment answers as plain data: the listed ones, then `rest` for ever (10_state.md R32: "a model
takes them as draws or as an oracle"). DESIGN CHOICE (log 3), safe: every finite run's answers can be listed. -/
structure Script (α : Type) where
  listed : List α
  rest : α
  deriving DecidableEq, Repr

/-- The three delays (60_exceptions.md R192). -/
inductive Delay where
  | settle
  | clear
  | interLine
  deriving DecidableEq, Repr

/-- A blocking primitive that the block is inside of: a `Tx`, `CtlSet` or `Wait` (10_state.md R35 (b)), or a frame-buffer
read (60_exceptions.md R198). -/
inductive Call where
  | ctlSet (line : Line) (level : Bool)
  | tx (bytes : List Byte)
  | rd (a : Nat)
  | wait (d : Delay)
  deriving DecidableEq, Repr

/-- The event alphabet (00_scope.md R7). `cmd` carries the three bits of the port, so that a reserved opcode leaves its
event too: DESIGN CHOICE (log 24). -/
inductive Event where
  | cmd (r : Req) (op : BitVec 3)
  | ret (r : Req) (status : Status)
  | set (line : Line) (level : Bool) (ok : Bool)
  | tx (bytes : List Byte) (res : TxResult)
  | wait (d : Delay)
  | rd (a : Nat) (w : Word)
  | wr (a : Nat) (b : Byte)
  | acq (r : Req)
  | rel (r : Req)
  deriving DecidableEq, Repr

/-- What 10_state.md R36 leaves unspecified after reset ("any bytes"); a reset input brings its own values (log 12). -/
structure Scratch where
  fb : List Host.Cell
  lb : List Byte
  hdr : List Byte
  status : Status
  policyS : Policy
  deriving DecidableEq, Repr

/-- What arrives from outside (60_exceptions.md R185; 70_reset_and_hazards.md R210), and the two marks that place a return
among the other events, which the spec leaves open. DESIGN CHOICE (log 29). -/
inductive Input where
  | cmd (r : Req) (op : BitVec 3)
  | wr (a : Nat) (b : Byte)
  | policy (p : Policy)
  | reset (u : Scratch)
  /-- The block answers the `k`-th command that it owes a return, unless the lock is held (log 30). -/
  | answer (k : Nat)
  /-- The return of a command that is turned away at an idle block is put off; it stands just before that return. -/
  | putOff
  deriving DecidableEq, Repr

/-- The frame buffer's contents: addresses strictly rising, no entry equal to what an unlisted address reads as. -/
abbrev Memory := List Host.Cell

/-- The machine's state. From `fb` to `policyS` it is the tuple of 10_state.md R20; `inFlight` and `px` are R35 (b) and
(c); `result` and `caller` are locals of the operation that runs, `owed` what is left of commands turned away; the rest are the
block's inputs, the environment's answers and the trace (log 3, 4, 6, 7, 8, 29). -/
structure State where
  /-- `FB` (R33). -/
  fb : Memory
  /-- `CTL` (R21). -/
  ctl : Ctl
  /-- `PSTATE` (R23). -/
  pstate : PState
  /-- `LOCK` (R25). -/
  lock : Lock
  /-- `WAITQ` (R26), a multiset kept as a list whose order no rule uses (log 13). -/
  waitq : List (Req × WaitOp)
  /-- `LB[0..151]` (R27). -/
  lb : List Byte
  /-- `HDR[0..6]` (R28). -/
  hdr : List Byte
  /-- `SEQ` (R29). -/
  seq : Seq
  /-- `STATUS` (R30). -/
  status : Status
  /-- `POLICY_S` (R31). -/
  policyS : Policy
  /-- The primitive that never returned, if any (R35 (b)). -/
  inFlight : Option Call
  /-- The words of the current line already sampled, `px` of 40_pixel_encoder.md R105 (R35 (c); log 17). -/
  px : List Word
  /-- The status an internal operation returns, on its way to its invoker (41_line_framer.md R129, "the status is the
  return value"; log 8). -/
  result : Option Status
  /-- The requester of the operation that runs (the parameter `r` of the pseudocode). -/
  caller : Req
  /-- The commands that were turned away and wait for their `RET`, oldest first, each with its status (log 29). -/
  owed : List (Req × Status)
  /-- The level of the `POLICY` input (R31, R37). -/
  policy : Policy
  /-- `CTL_RESULT` (R32). -/
  ctlAnswers : Script CtlAnswer
  /-- `TX_RESULT` and `TX_PREFIX` (R32). -/
  txAnswers : Script TxAnswer
  /-- Whether each frame-buffer read returns (60_exceptions.md R198). -/
  rdAnswers : Script Bool
  /-- Whether each wait ends (R35 (b); log 19). -/
  waitAnswers : Script Bool
  /-- `GRANT` (41_line_framer.md R122). -/
  grants : Script Bool
  /-- `ARB` (43_refresh_coordinator.md R162). -/
  arb : Script Nat
  /-- What arrives while no operation runs, first things first; `none` leaves the turn to the block. -/
  port : List (Option Input)
  /-- What arrives inside operations: the k-th slot just before the block's k-th event from now. -/
  during : List (List Input)
  /-- The words of an instruction handed to the block as its invoker would, to be decoded and run by the next step; no
  part of the machine and no input ever writes it (log 6). -/
  ordered : Option Code
  /-- The events so far, oldest first (00_scope.md R7). -/
  trace : List Event
  deriving DecidableEq, Repr

/-- The reasons the machine stops with a fault. -/
inductive Fault where
  /-- Raised by the frame-buffer read, at an offset outside 0 to 383999: the address does not exist, and the block itself
  cannot issue such a read (20_memory.md R55); only ENCODE_ROW of a row that is not one of the 240 reaches it. Safe. -/
  | noSuchAddress (a : Nat)
  deriving DecidableEq, Repr

/-- The reasons an instruction or input has no meaning. -/
inductive Refusal where
  /-- Raised by `exec` for an instruction that has no meaning yet. Safe. -/
  | notModelled (mnemonic : String)
  /-- Raised when a command is issued while INIT is running: "a run that violates it has no meaning"
  (93_implementation_defined.md U14; 42_display_controller.md R145). Safe. -/
  | commandDuringInit
  /-- Raised when an INIT that would be accepted is issued while another operation is running or has not returned: "INIT is
  not concurrent with anything" (42_display_controller.md R145; log 10). Safe. -/
  | initDuringOperation
  /-- Raised by `step` when the words in `ordered` are no instruction, with the decoder's name for why (log 6). Safe. -/
  | noInstruction (e : DecodeError)
  deriving DecidableEq, Repr

/-- The machine right after reset (10_state.md R36; 70_reset_and_hazards.md R210 to R212). The contents R36 leaves
unspecified, and the environment's answers, have the values of logs 1, 2, 3 and 20 (DESIGN CHOICE, unsafe). -/
def State.reset : State where
  fb := []
  ctl := ⟨false, false, false, false⟩
  pstate := .uninitialized
  lock := .free
  waitq := []
  lb := List.replicate 152 0#8
  hdr := List.replicate 7 0#8
  seq := ⟨.idle, .start, 0, 0⟩
  status := .ok
  policyS := .bestEffort
  inFlight := none
  px := []
  result := none
  caller := 0
  owed := []
  policy := .bestEffort
  ctlAnswers := ⟨[], .ok⟩
  txAnswers := ⟨[], .ok⟩
  rdAnswers := ⟨[], true⟩
  waitAnswers := ⟨[], true⟩
  grants := ⟨[], true⟩
  arb := ⟨[], 0⟩
  port := []
  during := []
  ordered := none
  trace := []

end Sys2Proof.Machine
end

