-- ==== Sys2Proof/Machine/Flags.lean ====
section
/-! DEFINITION. The flag analogues: the status an operation ends with, which power state admits which command, the
lock-held flag, and the binary codes the spec gives them. -/

namespace Sys2Proof.Machine

/-- The 3-bit status codes (30_encoding.md R91). -/
def Status.code : Status → BitVec 3
  | .ok => 0#3
  | .invalidArgument => 1#3
  | .resourceExhausted => 2#3
  | .transportFailure => 3#3
  | .controlLineFailure => 4#3

/-- The encoding of `PSTATE` (10_state.md R23). -/
def PState.code : PState → BitVec 3
  | .uninitialized => 0#3
  | .initializing => 1#3
  | .active => 2#3
  | .blanked => 3#3
  | .off => 4#3

/-- The encoding of `POLICY` (10_state.md R31). -/
def Policy.code : Policy → BitVec 1
  | .bestEffort => 0#1
  | .failFast => 1#1

/-- The lock-held flag (10_state.md R25). -/
def Lock.isHeld : Lock → Bool
  | .free => false
  | .held _ => true

/-- The status of the bus sequence of SEND_LINE: `OK` when both transport calls answered `ok`
(41_line_framer.md R129). -/
def lineStatus (r1 r2 : Bool) : Status :=
  if r1 && r2 then .ok else .transportFailure

/-- Whether a line's status ends the refresh: `POLICY_S = FailFast` and the status is not `OK`
(43_refresh_coordinator.md R166, R167). -/
def endsRefresh (p : Policy) (st : Status) : Bool :=
  decide (p = .failFast) && decide (st ≠ .ok)

/-- The power states in which BLANK and UNBLANK act (42_display_controller.md R146 to R148). -/
def PState.isUp : PState → Bool
  | .active => true
  | .blanked => true
  | _ => false

/-- The status of ALL_CLEAR's transport call (42_display_controller.md R143). -/
def clearStatus (sent : Bool) : Status :=
  if sent then .ok else .transportFailure

end Sys2Proof.Machine
end

