-- ==== Sys2Proof/Config.lean ====
section
/-! DEFINITION. What is fixed for this hardware (00_scope.md R5) and the open parameters that are constants (R6). -/

namespace Sys2Proof.Config

/-- `W`, panel and frame-buffer width in pixels (R5). -/
abbrev width : Nat := 400

/-- `H`, panel and frame-buffer height in lines (R5). -/
abbrev height : Nat := 240

/-- `STRIDE`, bytes from one row to the next (R5, 20_memory.md R51). -/
abbrev stride : Nat := 1600

/-- `FB_BYTES`, frame-buffer size in bytes (R5, 20_memory.md R50). -/
abbrev fbBytes : Nat := 384000

/-- `PIX_BYTES`, packed-pixel bytes per line (R5). -/
abbrev pixBytes : Nat := 150

/-- `TRAILER_BYTES`, trailing zero bytes of a payload (R5). -/
abbrev trailerBytes : Nat := 2

/-- `ENC_BYTES`, encoder output length (R5). -/
abbrev encBytes : Nat := 152

/-- `HDR_BYTES`, header bytes before the payload (R5). -/
abbrev hdrBytes : Nat := 7

/-- `MODE_DATA_UPDATE`, header byte 0 (R5, 30_encoding.md R82, R93). -/
abbrev modeDataUpdate : Byte := 0x01#8

/-- `CMD_ALL_CLEAR`, the single-byte clear command (R5, 30_encoding.md R88, R93). -/
abbrev cmdAllClear : Byte := 0x08#8

/-- `T_SETTLE`: at least 10 ms, in microseconds (R5). -/
def tSettleUs : Nat := 10000

/-- `T_CLEAR`: at least 50 ms, in microseconds (R5). -/
def tClearUs : Nat := 50000

/-- The part of `T_INTERLINE` above one microsecond. The source gives only "tens of microseconds"
(R6, decision D28), so it is a free value: nothing in Lean can evaluate it. DESIGN CHOICE (log 11), safe. -/
opaque tInterlineAboveOne : Nat

/-- `T_INTERLINE`, "a lower-bound wait of unspecified positive length" (R6), in microseconds. -/
def tInterlineUs : Nat := tInterlineAboveOne + 1

/-- The two byte orders a pixel word can have in the byte array. -/
inductive Endian where
  | little
  | big
  deriving DecidableEq, Repr

/-- `FB_ENDIAN` (R6): the spec decides little-endian (20_memory.md R53, decision D7). -/
def fbEndian : Endian := .little

end Sys2Proof.Config
end

