-- ==== Sys2Proof/WellFormed.lean ====
section
/-! DEFINITION. Which instructions have words: the bounds an encoding puts on its operands. -/

namespace Sys2Proof

/-- Well-formed: the operands fit their encoding. A line index must fit the 10-bit address field of the header
(30_encoding.md R84; indices 240 to 1023 fit and are rejected by SEND_LINE itself, 41_line_framer.md R121); a row
index is one of the 240 rows (40_pixel_encoder.md R105). A host command has no field that could be out of range. -/
def Instr.wf : Instr → Bool
  | .init _ => true
  | .refresh _ => true
  | .blank _ => true
  | .unblank _ => true
  | .detach _ => true
  | .sendLine line => decide (line.toNat < 1024)
  | .encodeRow y => decide (y < Config.height)
  | .trailer => true
  | .allClear => true

end Sys2Proof
end

