-- ==== Sys2Proof/Decode.lean ====
section
/-! DEFINITION. The decoder, total, rejecting by name; the encoder beside it; the table's own word numbering. -/

namespace Sys2Proof

/-- The host command port (30_encoding.md R90); opcodes 0, 6 and 7 are reserved (R92 (a)). -/
def decodeOp (op : BitVec 3) : Except DecodeError HostOp :=
  match op.toNat with
  | 1 => .ok .init
  | 2 => .ok .refresh
  | 3 => .ok .blank
  | 4 => .ok .unblank
  | 5 => .ok .detach
  | _ => .error (.reservedOpcode op)

/-- The seven header bytes of a line frame (30_encoding.md R81 to R84). -/
def decodeHeader (b0 b1 b2 b3 b4 hi lo : Byte) : Except DecodeError Instr :=
  if b0 ≠ Config.modeDataUpdate then .error (.modeByte b0)
  else if b1 ≠ 0#8 ∨ b2 ≠ 0#8 ∨ b3 ≠ 0#8 ∨ b4 ≠ 0#8 then .error .reservedBytes
  else if 4 ≤ hi.toNat then .error (.addressHigh hi)
  else .ok (.sendLine (BitVec.ofNat 16 (256 * hi.toNat + lo.toNat)))

/-- Bytes in transmission order: a line-frame header, the clear frame, or a trailer. -/
def decodeWire : List Byte → Except DecodeError Instr
  | [b0, b1, b2, b3, b4, hi, lo] => decodeHeader b0 b1 b2 b3 b4 hi lo
  | [b] => if b = Config.cmdAllClear then .ok .allClear else .error (.commandByte b)
  | [b0, b1] => if b0 = 0#8 ∧ b1 = 0#8 then .ok .trailer else .error .trailerBytes
  | bytes => .error (.frameLength bytes.length)

/-- The decoder: total on any words. -/
def decode : Code → Except DecodeError Instr
  | .port r op =>
    match decodeOp op with
    | .ok h => .ok (h.toInstr r)
    | .error e => .error e
  | .wire bytes => decodeWire bytes
  | .row y => if y < Config.height then .ok (.encodeRow y) else .error (.rowIndex y)

/-- `ADDR_HI`, frame byte 5: `(line >> 8) & 0x03` (30_encoding.md R84). -/
def addrHi (line : BitVec 16) : Byte := ((line >>> 8) &&& 0x0003#16).setWidth 8

/-- `ADDR_LO`, frame byte 6: `line & 0xFF` (30_encoding.md R84). -/
def addrLo (line : BitVec 16) : Byte := (line &&& 0x00FF#16).setWidth 8

/-- The header of a line frame (30_encoding.md R81; 41_line_framer.md R123). -/
def headerBytes (line : BitVec 16) : List Byte :=
  [Config.modeDataUpdate, 0#8, 0#8, 0#8, 0#8, addrHi line, addrLo line]

/-- The trailer (30_encoding.md R86). -/
def trailerZeros : List Byte := [0#8, 0#8]

/-- The clear frame (30_encoding.md R88). -/
def clearFrame : List Byte := [Config.cmdAllClear]

/-- The encoder: the words of an instruction, from the tables of 30_encoding.md. -/
def encode : Instr → Code
  | .init r => .port r 0b001#3
  | .refresh r => .port r 0b010#3
  | .blank r => .port r 0b011#3
  | .unblank r => .port r 0b100#3
  | .detach r => .port r 0b101#3
  | .sendLine line => .wire (headerBytes line)
  | .encodeRow y => .row y
  | .trailer => .wire trailerZeros
  | .allClear => .wire clearFrame

/-- `n` bytes of the number `w`, the most significant first: the table reads "the 7 bytes as one big-endian 56-bit
number" (opcode_table.json, row SEND_LINE), first byte sent on the left (30_encoding.md R95). -/
def bytesBE : Nat → Nat → List Byte
  | 0, _ => []
  | n + 1, w => BitVec.ofNat 8 (w / 256 ^ n) :: bytesBE n w

/-- The words the table's number `w` of `nbits` bits stands for. The host-command rows (3 bits, held in one byte) come
first. A 3-bit word that the host port reserves can only be a pixel group `rgb` of the row ENCODE_ROW, whose pattern
fixes no bit and names no row: it is read as row 0. DESIGN CHOICE (log 6), safe: the machine itself never reads this. -/
def tableCode (nbits w : Nat) : Option Code :=
  if 2 ^ nbits ≤ w then none
  else if nbits ≤ 8 then
    if w < 8 then
      match decodeOp (BitVec.ofNat 3 w) with
      | .ok _ => some (.port 0 (BitVec.ofNat 3 w))
      | .error _ => some (.row 0)
    else some (.wire (bytesBE 1 w))
  else if nbits = 16 then some (.wire (bytesBE 2 w))
  else if nbits = 56 then some (.wire (bytesBE 7 w))
  else none

/-- The instruction the decoder reads from a word numbered as the opcode table numbers it. -/
def decodeTableWord (nbits w : Nat) : Option Instr :=
  match tableCode nbits w with
  | some c =>
    match decode c with
    | .ok i => some i
    | .error _ => none
  | none => none

end Sys2Proof
end

