-- ==== Sys2Proof/Machine/Operands.lean ====
section
/-! DEFINITION. Operand forms: frame-buffer addresses, the pixel word, channel extraction, packing and its inverse,
serial bit positions. -/

namespace Sys2Proof.Machine

/-- `addr(y, x) = y*1600 + x*4` (20_memory.md R51). -/
def pixelAddr (y x : Nat) : Nat := y * Config.stride + x * 4

/-- The 32-bit word of four consecutive bytes in the given order (20_memory.md R53). -/
def wordOfBytes (e : Config.Endian) (b0 b1 b2 b3 : Byte) : Word :=
  match e with
  | .little => b3 ++ b2 ++ b1 ++ b0
  | .big => b0 ++ b1 ++ b2 ++ b3

/-- `chan(w, k)`: the least significant bit of red (`k = 0`), green (`k = 1`), blue (`k = 2`)
(40_pixel_encoder.md R101; 20_memory.md R54). -/
def chan (w : Word) : Nat → Bool
  | 0 => w.getLsbD 16
  | 1 => w.getLsbD 8
  | 2 => w.getLsbD 0
  | _ => false

/-- `0x80 >> (p mod 8)`, the mask of serial position `p` inside its byte (40_pixel_encoder.md R102). -/
def serialMask (p : Nat) : Byte := 0x80#8 >>> (p % 8)

/-- `out[p div 8] := out[p div 8] | (0x80 >> (p mod 8))` (40_pixel_encoder.md R103). -/
def setSerialBit (out : List Byte) (p : Nat) : List Byte :=
  out.modify (p / 8) (fun b => b ||| serialMask p)

/-- The body of the loops of `pack_row` for one channel of one pixel: position `3*i + k`. -/
def placeChannel (i : Nat) (w : Word) (out : List Byte) (k : Nat) : List Byte :=
  if chan w k then setSerialBit out (3 * i + k) else out

/-- The loop over the pixels of a row, from pixel `i` on. -/
def placePixels : Nat → List Word → List Byte → List Byte
  | _, [], out => out
  | i, w :: ws, out => placePixels (i + 1) ws ([0, 1, 2].foldl (placeChannel i w) out)

/-- `ceil(3*Wp / 8)` (40_pixel_encoder.md R103). -/
def packedLength (wp : Nat) : Nat := (3 * wp + 7) / 8

/-- `pack_row(Wp, px)` with `Wp` the number of pixels (40_pixel_encoder.md R100, R103). -/
def packRow (px : List Word) : List Byte :=
  placePixels 0 px (List.replicate (packedLength px.length + Config.trailerBytes) 0#8)

/-- `bit(p) = (bytes[p div 8] >> (7 - (p mod 8))) & 1` (40_pixel_encoder.md R108; 00_scope.md R8). -/
def serialBit (bytes : List Byte) (p : Nat) : Bool :=
  (bytes.getD (p / 8) 0#8).getLsbD (7 - p % 8)

/-- `unpack_row(Wp, bytes)` (40_pixel_encoder.md R108); no part of the hardware. -/
def unpackRow (wp : Nat) (bytes : List Byte) : List (Bool × Bool × Bool) :=
  (List.range wp).map fun i =>
    (serialBit bytes (3 * i), serialBit bytes (3 * i + 1), serialBit bytes (3 * i + 2))

/-- The bits of a byte string in the order in which they go on the wire (20_memory.md R64). -/
def serialBits (bytes : List Byte) : List Bool :=
  (List.range (8 * bytes.length)).map (serialBit bytes)

end Sys2Proof.Machine
end

