-- ==== Sys2Proof/Machine/Ops.lean ====
section
/-! DEFINITION. Named operations over memory and registers, the form of an action, the blocking primitives taken alone
(00_scope.md R9), completion with a status (the block's analogue of taking an exception), and the reset operation. -/

namespace Sys2Proof.Machine

/-! ## The frame buffer -/

/-- What a byte that nothing has written reads as. DESIGN CHOICE (log 2), unsafe: 10_state.md R36 says "any bytes". -/
def Memory.unlisted : Byte := 0x00#8

/-- The byte at an address. -/
def Memory.read : Memory → Nat → Byte
  | [], _ => Memory.unlisted
  | (k, b) :: m, a => if a = k then b else Memory.read m a

/-- The address removed. -/
def Memory.erase (m : Memory) (a : Nat) : Memory := m.filter fun c => decide (c.1 ≠ a)

/-- The address placed, before the first entry above it. -/
def Memory.place : Memory → Nat → Byte → Memory
  | [], a, b => [(a, b)]
  | (k, c) :: m, a, b =>
    if a < k then (a, b) :: (k, c) :: m
    else if a = k then (a, b) :: m
    else (k, c) :: Memory.place m a b

/-- One byte written, keeping the canonical form. -/
def Memory.write (m : Memory) (a : Nat) (b : Byte) : Memory :=
  if b = Memory.unlisted then m.erase a else m.place a b

/-- Addresses strictly rising. -/
def Memory.rising : Memory → Bool
  | [] => true
  | [_] => true
  | c :: d :: m => decide (c.1 < d.1) && Memory.rising (d :: m)

/-- The canonical form: addresses rising, inside 0 to 383999 (20_memory.md R50), no entry that could be left out. -/
def Memory.wf (m : Memory) : Bool :=
  m.rising && m.all fun c => decide (c.1 < Config.fbBytes) && decide (c.2 ≠ Memory.unlisted)

/-- A producer's byte write. One outside 0 to 383999 "never reach[es] the frame buffer" (20_memory.md R57). -/
def Memory.produce (m : Memory) (a : Nat) (b : Byte) : Memory :=
  if a < Config.fbBytes then m.write a b else m

/-- Producers' byte writes, one after the other. -/
def Memory.produceAll (m : Memory) (cells : List Host.Cell) : Memory :=
  cells.foldl (fun m c => m.produce c.1 c.2) m

/-- Contents from any list of cells. -/
def Memory.ofCells (cells : List Host.Cell) : Memory := Memory.produceAll [] cells

/-- The pixel word at byte offset `a` (20_memory.md R53, R55). -/
def Memory.pixel (m : Memory) (a : Nat) : Word :=
  wordOfBytes Config.fbEndian (m.read a) (m.read (a + 1)) (m.read (a + 2)) (m.read (a + 3))

/-! ## Scripts and delays -/

/-- The `n`-th answer still to come. -/
def Script.get {α : Type} (c : Script α) (n : Nat) : α := c.listed.getD n c.rest

/-- The script after `n` answers. -/
def Script.drop {α : Type} (c : Script α) (n : Nat) : Script α := { c with listed := c.listed.drop n }

/-- The least length of a wait, in microseconds (00_scope.md R5, R6; 60_exceptions.md R192). -/
def Delay.leastUs : Delay → Nat
  | .settle => Config.tSettleUs
  | .clear => Config.tClearUs
  | .interLine => Config.tInterlineUs

/-! ## Updates of the state -/

/-- One line of `CTL` (10_state.md R21). -/
def Ctl.set (c : Ctl) : Line → Bool → Ctl
  | .chipSelect, v => { c with chipSelect := v }
  | .comInversionInput, v => { c with comInversionInput := v }
  | .displayEnable, v => { c with displayEnable := v }
  | .comInversionModeSelect, v => { c with comInversionModeSelect := v }

/-- An event happens. -/
def State.emit (s : State) (e : Event) : State := { s with trace := s.trace ++ [e] }

/-- `CTL.line <- level`. -/
def State.setLine (s : State) (l : Line) (v : Bool) : State := { s with ctl := s.ctl.set l v }

/-- `seq.unit <- u`. -/
def State.setUnit (s : State) (u : SeqUnit) : State := { s with seq := { s.seq with unit := u } }

/-- `seq.step <- p`. -/
def State.setStep (s : State) (p : SeqStep) : State := { s with seq := { s.seq with step := p } }

/-- `seq.LN <- n`. -/
def State.setLn (s : State) (n : Fin 240) : State := { s with seq := { s.seq with ln := n } }

/-- `seq.PXI <- x`. -/
def State.setPxi (s : State) (x : Fin 400) : State := { s with seq := { s.seq with pxi := x } }

/-- `PSTATE <- p`. -/
def State.setPState (s : State) (p : PState) : State := { s with pstate := p }

/-- `STATUS <- st`. -/
def State.setStatus (s : State) (st : Status) : State := { s with status := st }

/-- `px[x] := w`, the pixels taken in order (40_pixel_encoder.md R105). -/
def State.sample (s : State) (w : Word) : State := { s with px := s.px ++ [w] }

/-- An internal operation's status, set out for its invoker or taken by it (log 8). -/
def State.setResult (s : State) (st : Option Status) : State := { s with result := st }

/-- `WAITQ <- WAITQ + (r, op)` (43_refresh_coordinator.md R161, R170). -/
def State.enqueue (s : State) (r : Req) (op : WaitOp) : State := { s with waitq := s.waitq ++ [(r, op)] }

/-- A command is turned away with a status and waits for its `RET` (log 29). -/
def State.owe (s : State) (r : Req) (st : Status) : State := { s with owed := s.owed ++ [(r, st)] }

/-- A byte string cut or filled with zeros to `n` bytes. -/
def fitBytes (n : Nat) (l : List Byte) : List Byte := (l ++ List.replicate n 0#8).take n

/-- The reset operation (70_reset_and_hazards.md R210, R211): every piece of the block's state at the value of
10_state.md R36, what R36 leaves unspecified taken from `u`; no event. The environment's inputs, answers and the trace are
not the block's and stay (log 12). -/
def State.resetTo (s : State) (u : Scratch) : State :=
  { s with
    fb := Memory.ofCells u.fb
    ctl := ⟨false, false, false, false⟩
    pstate := .uninitialized
    lock := .free
    waitq := []
    lb := fitBytes Config.encBytes u.lb
    hdr := fitBytes Config.hdrBytes u.hdr
    seq := ⟨.idle, .start, 0, 0⟩
    status := u.status
    policyS := u.policyS
    inFlight := none
    px := []
    result := none
    caller := 0
    owed := []
    ordered := none }

/-! ## Actions -/

/-- Why an action ends before its last line. -/
inductive Stop where
  /-- A call never returned (60_exceptions.md R198): the block is stuck, which is no fault. -/
  | stuck
  /-- A reset input abandoned the operation (70_reset_and_hazards.md R210). -/
  | reset
  | refused (r : Refusal)
  | fault (f : Fault)
  deriving DecidableEq, Repr

/-- An action on the state: sequential pseudocode (00_scope.md R9) that may stop early. -/
abbrev Act (α : Type) := EStateM Stop State α

/-- A value read from the state. -/
def Act.read {α : Type} (f : State → α) : Act α := fun s => .ok (f s) s

/-- The state updated. -/
def Act.update (f : State → State) : Act Unit := fun s => .ok () (f s)

/-- The action ends here. -/
def Act.stop {α : Type} (e : Stop) : Act α := fun s => .error e s

/-- The outcome of a whole action. Being stuck and being reset are next states. -/
def Act.outcome (x : Act Unit) (s : State) : Host.Outcome State Fault Refusal :=
  match x s with
  | .ok _ t => .next t
  | .error .stuck t => .next t
  | .error .reset t => .next t
  | .error (.refused r) _ => .refused r
  | .error (.fault f) _ => .fault f

/-! ## The primitives alone: what one call does, with nothing arriving before it -/

/-- `CtlSet(line, level)` (10_state.md R21): on `ok` the line changes; on `fail` `CTL` is left unchanged; without an
answer the block is stuck in the call. The result says whether the answer was `ok`. -/
def ctlSetNow (l : Line) (v : Bool) : Act Bool := fun s =>
  let t := { s with ctlAnswers := s.ctlAnswers.drop 1 }
  match s.ctlAnswers.get 0 with
  | .ok => .ok true ((t.setLine l v).emit (.set l v true))
  | .fail => .ok false (t.emit (.set l v false))
  | .never => .error .stuck { t with inFlight := some (.ctlSet l v) }

/-- `Tx(bytes)` (60_exceptions.md R194). A failed call may have put any number of its bytes on the wire
(41_line_framer.md R132): the answer's number, at most all of them. -/
def txNow (bytes : List Byte) : Act Bool := fun s =>
  let t := { s with txAnswers := s.txAnswers.drop 1 }
  match s.txAnswers.get 0 with
  | .ok => .ok true (t.emit (.tx bytes .ok))
  | .fail n => .ok false (t.emit (.tx bytes (.fail (min n bytes.length))))
  | .never => .error .stuck { t with inFlight := some (.tx bytes) }

/-- `FB32(a)` (20_memory.md R55, R58): all four bytes at one instant, no side effect on the buffer (R56). -/
def rdNow (a : Nat) : Act Word := fun s =>
  if a + 3 < Config.fbBytes then
    let t := { s with rdAnswers := s.rdAnswers.drop 1 }
    if s.rdAnswers.get 0 then .ok (s.fb.pixel a) (t.emit (.rd a (s.fb.pixel a)))
    else .error .stuck { t with inFlight := some (.rd a) }
  else .error (.fault (.noSuchAddress a)) s

/-- `Wait(t)` (60_exceptions.md R192): an ordered event and nothing else; without an end the block is stuck in it
(10_state.md R35 (b); log 19). -/
def waitNow (d : Delay) : Act Unit := fun s =>
  let t := { s with waitAnswers := s.waitAnswers.drop 1 }
  if s.waitAnswers.get 0 then .ok () (t.emit (.wait d))
  else .error .stuck { t with inFlight := some (.wait d) }

/-- `Release(r)` (43_refresh_coordinator.md R162, R168). -/
def relNow (r : Req) : Act Unit := Act.update fun s => { s with lock := .free }.emit (.rel r)

/-- Completion with a status (10_state.md R30): the block's analogue of taking an exception. "An error saves no state,
switches no mode, masks nothing and transfers control to no handler" (60_exceptions.md R188): the code is put in `STATUS`
and returned to the requester. -/
def retNow (r : Req) (st : Status) : Act Unit := Act.update fun s => (s.setStatus st).emit (.ret r st)

/-- The `k`-th command that is owed its return gets it. Where there is none nothing happens, and nothing while the lock is
held: no `RET` is among the events of other operations that may fall between `ACQ` and `REL`
(43_refresh_coordinator.md R172; log 30). -/
def answerNow (k : Nat) : Act Unit := fun s =>
  match s.lock, s.owed[k]? with
  | .free, some (r, st) => retNow r st { s with owed := s.owed.eraseIdx k }
  | _, _ => .ok () s

/-- `GRANT()` (41_line_framer.md R122). -/
def grantNow : Act Bool := fun s => .ok (s.grants.get 0) { s with grants := s.grants.drop 1 }

/-- A command is issued: event `CMD(r, op)`. During INIT the host must not (42_display_controller.md R145), and a run in
which it does is refused (93_implementation_defined.md U14; log 10). Whether `r` has a command outstanding is not looked at:
60_exceptions.md R186 says it cannot have one, and gives the case no meaning. DESIGN CHOICE (log 27). -/
def issue (r : Req) (op : BitVec 3) : Act Unit := fun s =>
  if s.seq.unit = .init ∨ s.pstate = .initializing then .error (.refused .commandDuringInit) s
  else .ok () (s.emit (.cmd r op))

end Sys2Proof.Machine
end

