-- ==== Sys2Proof/Machine/Environment.lean ====
section
/-! DEFINITION. What arrives from outside while an operation runs (60_exceptions.md R185), and the primitives as the
pseudocode uses them: first the environment may act, then the event happens. -/

namespace Sys2Proof.Machine

/-- BLANK (42_display_controller.md R146, R148, R149): a single atomic step, no lock, the answer of `CtlSet` ignored. Its `RET`
is part of that step also while another operation holds the lock (log 30). -/
def blankNow (r : Req) : Act Unit := do
  issue r 0b011#3
  let p ← Act.read State.pstate
  if p.isUp then
    let _ ← ctlSetNow .displayEnable false
    Act.update fun s => s.setPState .blanked
    retNow r .ok
  else
    retNow r .invalidArgument

/-- UNBLANK (42_display_controller.md R147, R148, R149). -/
def unblankNow (r : Req) : Act Unit := do
  issue r 0b100#3
  let p ← Act.read State.pstate
  if p.isUp then
    let _ ← ctlSetNow .displayEnable true
    Act.update fun s => s.setPState .active
    retNow r .ok
  else
    retNow r .invalidArgument

/-- The request half of REFRESH (43_refresh_coordinator.md R161). -/
def requestRefresh (r : Req) : Act Unit := do
  issue r 0b010#3
  Act.update fun s => s.enqueue r .refresh

/-- The request half of DETACH (42_display_controller.md R150, R151). The result says whether it now waits; if not, it is
to be answered `InvalidArgument`. -/
def requestDetach (r : Req) : Act Bool := do
  issue r 0b101#3
  let p ← Act.read State.pstate
  if p = .off then
    pure false
  else
    Act.update fun s => s.enqueue r .detach
    pure true

/-- A command that is turned away and not answered yet: its `RET` may come at any later moment at which the lock is free
(20_memory.md R57; 60_exceptions.md R185; 43_refresh_coordinator.md R172; log 29, log 30). -/
def turnAway (r : Req) : Act Unit := Act.update fun s => s.owe r .invalidArgument

/-- INIT arriving while an operation runs or has not returned: turned away outside `Uninitialized`
(42_display_controller.md R153); in `Uninitialized` it would have to run beside that operation, which R145 excludes (log 10).
An INIT that meets only waiting requests does not come here but goes first (`openTurn`). -/
def initMeetsOperation (r : Req) : Act Unit := do
  issue r 0b001#3
  let p ← Act.read State.pstate
  if p = .uninitialized then
    Act.stop (.refused .initDuringOperation)
  else
    turnAway r

/-- A command arriving while an operation runs (60_exceptions.md R185): REFRESH and DETACH wait, BLANK and UNBLANK take
effect at once, and what is turned away is owed its return. -/
def arrive (r : Req) (op : BitVec 3) : Act Unit :=
  match decodeOp op with
  | .ok .init => initMeetsOperation r
  | .ok .refresh => requestRefresh r
  | .ok .blank => blankNow r
  | .ok .unblank => unblankNow r
  | .ok .detach => do
    let waits ← requestDetach r
    if waits then pure () else turnAway r
  | .error _ => do
    issue r op
    turnAway r

/-- A producer's byte write: one event `WR(a, b)` per byte that reaches the buffer (20_memory.md R57, R59). -/
def produceByte (a : Nat) (b : Byte) : Act Unit := Act.update fun s =>
  if a < Config.fbBytes then { s with fb := s.fb.produce a b }.emit (.wr a b) else s

/-- One input while an operation runs. A reset is one instant: the stretch in which 70_reset_and_hazards.md R210 has it
held active is not modelled, so a later input meets a released block. DESIGN CHOICE (log 28). -/
def applyInput : Input → Act Unit
  | .cmd r op => arrive r op
  | .wr a b => produceByte a b
  | .policy p => Act.update fun s => { s with policy := p }
  | .reset u => do
    Act.update fun s => s.resetTo u
    Act.stop .reset
  | .answer k => answerNow k
  | .putOff => pure ()

/-- The inputs of one slot in order. If one of them ends the operation (a reset, or a call that never returns), the
inputs after it find no operation running and go to the head of `port`. -/
def applyInputs : List Input → Act Unit
  | [] => pure ()
  | i :: rest => fun s =>
    match applyInput i s with
    | .ok _ t => applyInputs rest t
    | .error e t => .error e { t with port := rest.map some ++ t.port }

/-- The environment's turn: what is scheduled just before the block's next event happens now. -/
def envTurn : Act Unit := fun s =>
  match s.during with
  | [] => .ok () s
  | slot :: later => applyInputs slot { s with during := later }

/-- The command is an INIT. -/
def Input.isInit : Input → Bool
  | .cmd _ op => decide (op = 0b001#3)
  | _ => false

/-- The inputs of a slot that come before an INIT which the block would accept; all of them where there is none. -/
def State.beforeInit (s : State) (slot : List Input) : List Input :=
  if s.pstate = .uninitialized then slot.takeWhile fun i => !i.isInit else slot

/-- The environment's turn while no operation runs and none has to return. An INIT that would be accepted goes before all that
the block was about to do, a request that waits for the lock included: it is left at the head of `port` for the next step, with
what follows it, and the result is `true`. 42_display_controller.md R145 speaks of commands issued after `CMD(r, INIT)` only,
not of a request that already waits. DESIGN CHOICE (log 10). -/
def openTurn : Act Bool := fun s =>
  match s.during with
  | [] => .ok false s
  | slot :: later =>
    let first := s.beforeInit slot
    let rest := slot.drop first.length
    match applyInputs first { s with during := later, port := rest.map some ++ s.port } with
    | .ok _ t => .ok (!rest.isEmpty) t
    | .error e t => .error e t

/-- `CtlSet(line, level)` inside an operation. -/
def ctlSet (l : Line) (v : Bool) : Act Bool := do
  envTurn
  ctlSetNow l v

/-- `Tx(bytes)` inside an operation. -/
def tx (bytes : List Byte) : Act Bool := do
  envTurn
  txNow bytes

/-- `FB32(a)` inside an operation. -/
def rd (a : Nat) : Act Word := do
  envTurn
  rdNow a

/-- `Wait(t)` inside an operation. -/
def wait (d : Delay) : Act Unit := do
  envTurn
  waitNow d

/-- `Release(r)`, with the sequencer back at `Idle` (42_display_controller.md R150; 43_refresh_coordinator.md R170). -/
def release (r : Req) : Act Unit := do
  envTurn
  relNow r
  Act.update fun s => s.setUnit .idle

/-- `return s` at the top level of a command that held the lock: event `RET(r, s)`, which comes before the next grant
(43_refresh_coordinator.md R172; 95_test_vectors.md P6 (a), P7). What is scheduled before it happens first. -/
def ret (r : Req) (st : Status) : Act Unit := do
  envTurn
  retNow r st

/-- The environment puts off the return that stands next. -/
def State.putsOff (s : State) : Bool := (s.during.headD []).contains .putOff

/-- The return of a command that is turned away at an idle block. What is scheduled before it happens first, and it may be
put off until the block is asked to answer, as it is when an INIT goes first (log 29). -/
def retTurnedAway (r : Req) : Act Unit := do
  let later ← Act.read State.putsOff
  let initFirst ← openTurn
  if later || initFirst then
    turnAway r
  else
    retNow r .invalidArgument

/-- A reserved opcode: `RET(r, InvalidArgument)` and nothing else (30_encoding.md R92 (a)). That it leaves an event `CMD`
like the five commands of 00_scope.md R7 is the model's DESIGN CHOICE (log 24). -/
def reservedOpcode (r : Req) (op : BitVec 3) : Act Unit := do
  issue r op
  retTurnedAway r

end Sys2Proof.Machine
end

