-- ==== Sys2Proof/Machine/Framer.lean ====
section
/-! DEFINITION. The line framer: SEND_LINE (41_line_framer.md), position by position (10_state.md R29). -/

namespace Sys2Proof.Machine

/-- `CsDeassert`: chip-select is always deasserted and the call's answer ignored (41_line_framer.md R126, R127); the status
decided before it (`closeLine`) is then returned and nothing of it kept. -/
def deassertLine : Act Status := do
  let _ ← ctlSet .chipSelect false
  let st ← Act.read State.result
  Act.update fun s => s.setResult none
  pure (st.getD .ok)

/-- The transport calls of the line are over with the answers `r1` and `r2` (41_line_framer.md R129). -/
def closeLine (r1 r2 : Bool) : Act Status := do
  Act.update fun s => (s.setStep .csDeassert).setResult (some (lineStatus r1 r2))
  deassertLine

/-- `TxPayload`: the payload is what `LB` holds (41_line_framer.md R124). -/
def sendPayload : Act Status := do
  let payload ← Act.read State.lb
  let r2 ← tx payload
  closeLine true r2

/-- `TxHeader`: a failed header call suppresses the payload call (41_line_framer.md R126). -/
def sendHeader : Act Status := do
  let hdr ← Act.read State.hdr
  let r1 ← tx hdr
  if r1 then
    Act.update fun s => s.setStep .txPayload
    sendPayload
  else
    closeLine false false

/-- `CsAssert`: the call's answer is not examined (41_line_framer.md R127). -/
def assertLine : Act Status := do
  let _ ← ctlSet .chipSelect true
  Act.update fun s => s.setStep .txHeader
  sendHeader

/-- SEND_LINE(line, LB) (41_line_framer.md R129): range check, buffer check, header, bus sequence (R128). The status is the
value it returns; no register takes it. -/
def sendLine (line : BitVec 16) : Act Status := do
  if Config.height ≤ line.toNat then
    pure .invalidArgument
  else
    let granted ← grantNow
    if granted then
      Act.update fun s => { s with hdr := headerBytes line }.setStep .csAssert
      assertLine
    else
      pure .resourceExhausted

/-- The meaning of SEND_LINE: the status it returns is set out for its invoker (log 8). -/
def execSendLine (line : BitVec 16) (s : State) : Host.Outcome State Fault Refusal :=
  Act.outcome (do let st ← sendLine line; Act.update fun s => s.setResult (some st)) s

end Sys2Proof.Machine
end

