-- ==== Sys2Proof/Machine/Controller.lean ====
section
/-! DEFINITION. The display controller: INIT, ALL_CLEAR, BLANK, UNBLANK, and the body of DETACH
(42_display_controller.md). -/

namespace Sys2Proof.Machine

/-- ALL_CLEAR (42_display_controller.md R152): one transport call with the byte 0x08; the result says whether it
answered `ok`. -/
def allClear : Act Bool := tx clearFrame

/-- The meaning of ALL_CLEAR: what its call answers is set out for its invoker (log 8). -/
def execAllClear (s : State) : Host.Outcome State Fault Refusal :=
  Act.outcome (do let sent ← allClear; Act.update fun s => s.setResult (some (clearStatus sent))) s

/-- What a failing step of INIT gives: `ControlLineFailure` for a `CtlSet` (42_display_controller.md R143). -/
def lineFailure (ok : Bool) : Option Status := if ok then none else some .controlLineFailure

/-- What a failing clear command gives: `TransportFailure` (42_display_controller.md R143). -/
def clearFailure (sent : Bool) : Option Status := if sent then none else some .transportFailure

/-- One step of the INIT sequence (42_display_controller.md R142); the result is the error of a failing call. -/
def initStep (k : InitStep) : Act (Option Status) :=
  match k with
  | .modeSelectLow => do
    let ok ← ctlSet .comInversionModeSelect false
    pure (lineFailure ok)
  | .displayLow => do
    let ok ← ctlSet .displayEnable false
    pure (lineFailure ok)
  | .settle => do
    wait .settle
    pure none
  | .displayHigh => do
    let ok ← ctlSet .displayEnable true
    pure (lineFailure ok)
  | .csAssert => do
    let ok ← ctlSet .chipSelect true
    pure (lineFailure ok)
  | .allClear => do
    let sent ← allClear
    pure (clearFailure sent)
  | .csDeassert => do
    let ok ← ctlSet .chipSelect false
    pure (lineFailure ok)
  | .clearWait => do
    wait .clear
    pure none

/-- The steps in which a failure leaves chip-select perhaps asserted: 5 and 6 (42_display_controller.md R143). -/
def InitStep.needsDeassert : InitStep → Bool
  | .csAssert => true
  | .allClear => true
  | _ => false

/-- `FAIL(e, cs)` (42_display_controller.md R142, R143): after a failure at step 5 or 6 one deassert is attempted and its
answer ignored. -/
def initFail (r : Req) (k : InitStep) (e : Status) : Act Unit := do
  if k.needsDeassert then
    let _ ← ctlSet .chipSelect false
  envTurn
  Act.update fun s => (s.setPState .uninitialized).setUnit .idle
  retNow r e

/-- The end of a successful INIT (42_display_controller.md R144). -/
def initDone (r : Req) : Act Unit := do
  envTurn
  Act.update fun s => (s.setPState .active).setUnit .idle
  retNow r .ok

/-- Steps of INIT in order; the first that fails ends the sequence (42_display_controller.md R143). -/
def initSequence (r : Req) : List InitStep → Act Unit
  | [] => initDone r
  | k :: ks => do
    Act.update fun s => s.setStep (.initStep k)
    let failed ← initStep k
    match failed with
    | none => initSequence r ks
    | some e => initFail r k e

/-- The eight steps in the order of 42_display_controller.md R142. -/
def InitStep.all : List InitStep :=
  [.modeSelectLow, .displayLow, .settle, .displayHigh, .csAssert, .allClear, .csDeassert, .clearWait]

/-- The steps from `k` on. -/
def InitStep.onward (k : InitStep) : List InitStep := InitStep.all.dropWhile fun j => decide (j ≠ k)

/-- INIT(r) (42_display_controller.md R141, R142, R153). A request that waits for the lock, and a return that is owed, do not
keep it from running, and stay as they are until it has returned: R145 does not speak of them. DESIGN CHOICE (log 10). -/
def initCommand (r : Req) : Act Unit := do
  issue r 0b001#3
  let p ← Act.read State.pstate
  if p = .uninitialized then
    let u ← Act.read fun s => s.seq.unit
    if u = .idle then
      Act.update fun s => { s with caller := r, pstate := .initializing }.setUnit .init
      initSequence r InitStep.all
    else
      Act.stop (.refused .initDuringOperation)
  else
    retTurnedAway r

/-- The meaning of INIT. -/
def execInit (r : Req) (s : State) : Host.Outcome State Fault Refusal := (initCommand r).outcome s

/-- The meaning of BLANK. -/
def execBlank (r : Req) (s : State) : Host.Outcome State Fault Refusal := (blankNow r).outcome s

/-- The meaning of UNBLANK. -/
def execUnblank (r : Req) (s : State) : Host.Outcome State Fault Refusal := (unblankNow r).outcome s

/-- DETACH from its second call on (42_display_controller.md R150). `PSTATE <- Off` is written together with that call's
return, so what arrives before the release already finds `Off`; the spec does not say. DESIGN CHOICE (log 26). -/
def detachFinish (r : Req) : Act Unit := do
  let _ ← ctlSet .chipSelect false
  Act.update fun s => s.setPState .off
  release r
  ret r .ok

/-- DETACH from its first call on (42_display_controller.md R150). -/
def detachLower (r : Req) : Act Unit := do
  let _ ← ctlSet .displayEnable false
  Act.update fun s => (if s.pstate = .active then s.setPState .blanked else s).setStep (.detachStep .csLow)
  detachFinish r

/-- DETACH once it holds the lock (42_display_controller.md R150); another DETACH may have won the lock first. A DETACH
that holds the lock in `Initializing` is excluded by R145. -/
def detachBody (r : Req) : Act Unit := do
  Act.update fun s => s.setUnit .detach
  let p ← Act.read State.pstate
  if p = .initializing then
    Act.stop (.refused .commandDuringInit)
  else if p = .off then
    release r
    ret r .invalidArgument
  else
    Act.update fun s => s.setStep (.detachStep .displayLow)
    detachLower r

end Sys2Proof.Machine
end

