-- ==== Sys2Proof/Machine/Encoder.lean ====
section
/-! DEFINITION. The pixel row encoder: ENCODE_ROW and TRAILER (40_pixel_encoder.md; 30_encoding.md R86). -/

namespace Sys2Proof.Machine

/-- The reads of one row, for the given columns in order, each word sampled into `px` (40_pixel_encoder.md R105;
20_memory.md R61). -/
def readPixels (y : Nat) : List (Fin 400) → Act Unit
  | [] => pure ()
  | x :: xs => do
    Act.update fun s => s.setPxi x
    let w ← rd (pixelAddr y x)
    Act.update fun s => s.sample w
    readPixels y xs

/-- `LB[0..151] <- pack_row(400, px)` (40_pixel_encoder.md R105); the sampled words are of no use any more. -/
def State.packLine (s : State) : State := { s with lb := packRow s.px, px := [] }

/-- ENCODE_ROW from column `x` on, the columns before it already sampled. -/
def encodeFrom (y x : Nat) : Act Unit := do
  readPixels y ((List.finRange Config.width).drop x)
  Act.update State.packLine

/-- ENCODE_ROW(y) (40_pixel_encoder.md R105): 400 reads, then all of `LB`. -/
def encodeRow (y : Nat) : Act Unit := do
  Act.update fun s => { s with px := [] }
  encodeFrom y 0

/-- The meaning of ENCODE_ROW. Of a row that is not one of the 240 the first read faults: it "cannot be issued"
(20_memory.md R55; log 16). -/
def execEncodeRow (y : Nat) (s : State) : Host.Outcome State Fault Refusal := (encodeRow y).outcome s

/-- TRAILER (30_encoding.md R86): `LB[150..151]` are the two zero bytes. As an operation of its own it is the model's
reading of the opcode table's row: DESIGN CHOICE (log 6). -/
def State.putTrailer (s : State) : State := { s with lb := s.lb.take Config.pixBytes ++ trailerZeros }

/-- The meaning of TRAILER. -/
def execTrailer (s : State) : Host.Outcome State Fault Refusal :=
  (Act.update State.putTrailer).outcome s

end Sys2Proof.Machine
end

