-- ==== Sys2Proof/Machine/Coordinator.lean ====
section
/-! DEFINITION. The refresh coordinator: REFRESH, the serialization lock, and DETACH, which waits for the same lock
(43_refresh_coordinator.md; 42_display_controller.md R150). -/

namespace Sys2Proof.Machine

/-- After SEND_LINE of a line returned `st`: under FailFast a failure ends the loop, else the inter-line delay and the rest
of it (43_refresh_coordinator.md R165 to R167). -/
def afterLine (st : Status) (rest : Act Status) : Act Status := do
  let p ← Act.read State.policyS
  if endsRefresh p st then
    pure st
  else
    Act.update fun s => s.setStep .gap
    wait .interLine
    rest

/-- The line loop over the given line numbers (43_refresh_coordinator.md R164 to R167, R170); the result is what the
refresh returns. -/
def lineLoop : List (Fin 240) → Act Status
  | [] => pure .ok
  | n :: ns => do
    Act.update fun s => (s.setLn n).setStep .encode
    encodeRow n
    let st ← sendLine (BitVec.ofNat 16 n)
    afterLine st (lineLoop ns)

/-- The end of a refresh: the lock released unconditionally, then the status returned (43_refresh_coordinator.md R168). -/
def finishRefresh (r : Req) (st : Status) : Act Unit := do
  release r
  ret r st

/-- REFRESH once it holds the lock (43_refresh_coordinator.md R163, R170): `POLICY` is sampled at `ACQ` (10_state.md R31),
the power state is tested once. -/
def refreshBody (r : Req) : Act Unit := do
  Act.update fun s => { s with policyS := s.policy }.setUnit .refresh
  let p ← Act.read State.pstate
  if p = .initializing then
    Act.stop (.refused .commandDuringInit)
  else if p = .uninitialized ∨ p = .off then
    finishRefresh r .invalidArgument
  else
    let st ← lineLoop (List.finRange Config.height)
    finishRefresh r st

/-- The lock grant (43_refresh_coordinator.md R162): when the lock is free and someone waits, one waiting entry, any one,
gets it (event `ACQ`). The script `arb` chooses. -/
def grantLock : Act (Option (Req × WaitOp)) := fun s =>
  if s.lock = .free then
    match s.waitq[s.arb.get 0 % s.waitq.length]? with
    | some (r, op) =>
      .ok (some (r, op))
        ({ s with
            lock := .held r
            caller := r
            waitq := s.waitq.eraseIdx (s.arb.get 0 % s.waitq.length)
            arb := s.arb.drop 1 }.emit (.acq r))
    | none => .ok none s
  else .ok none s

/-- The lock granted, if it can be, and the granted operation run to its end. -/
def grantAndRun : Act Unit := do
  let granted ← grantLock
  match granted with
  | none => pure ()
  | some (r, .refresh) => refreshBody r
  | some (r, .detach) => detachBody r

/-- The block's turn with requests waiting: the grant, unless an INIT goes first. -/
def serve : Act Unit := do
  let initFirst ← openTurn
  if initFirst then pure () else grantAndRun

/-- The meaning of REFRESH (43_refresh_coordinator.md R161, R162, R170): the request is queued, and the arbiter serves. -/
def execRefresh (r : Req) (s : State) : Host.Outcome State Fault Refusal :=
  Act.outcome (do requestRefresh r; serve) s

/-- DETACH(r): queued unless the block is off, where it is turned away (42_display_controller.md R150, R151). -/
def detachCommand (r : Req) : Act Unit := do
  let waits ← requestDetach r
  if waits then serve else retTurnedAway r

/-- The meaning of DETACH. -/
def execDetach (r : Req) (s : State) : Host.Outcome State Fault Refusal := (detachCommand r).outcome s

end Sys2Proof.Machine
end

