-- ==== Sys2Proof/Machine/Dispatch.lean ====
section
/-! DEFINITION. The dispatch: one arm per instruction. -/

namespace Sys2Proof.Machine

def exec (i : Instr) (s : State) : Host.Outcome State Fault Refusal :=
  match i with
  | .init r => Sys2Proof.Machine.execInit r s
  | .refresh r => Sys2Proof.Machine.execRefresh r s
  | .blank r => Sys2Proof.Machine.execBlank r s
  | .unblank r => Sys2Proof.Machine.execUnblank r s
  | .detach r => Sys2Proof.Machine.execDetach r s
  | .sendLine line => Sys2Proof.Machine.execSendLine line s
  | .encodeRow y => Sys2Proof.Machine.execEncodeRow y s
  | .trailer => Sys2Proof.Machine.execTrailer s
  | .allClear => Sys2Proof.Machine.execAllClear s

end Sys2Proof.Machine
end

