-- ==== Sys2Proof/Machine/Sequencer.lean ====
section
/-! DEFINITION. The sequencer (10_state.md R29): how the operation that runs goes on from the position at which it stands,
and what arrives while a call is stuck. -/

namespace Sys2Proof.Machine

/-- The lines that follow line `n`, "strictly in increasing index order" (43_refresh_coordinator.md R164). -/
def linesAfter (n : Fin 240) : List (Fin 240) := (List.finRange Config.height).drop (n + 1)

/-- The line loop from a position inside line `LN`, whose call has not been made yet; `none` at a step that is none of the
six of `Refresh`. -/
def loopFrom (q : Seq) : Option (Act Status) :=
  let rest := lineLoop (linesAfter q.ln)
  match q.step with
  | .encode => some do
    encodeFrom q.ln q.pxi
    let st ← sendLine (BitVec.ofNat 16 q.ln)
    afterLine st rest
  | .csAssert => some do
    let st ← assertLine
    afterLine st rest
  | .txHeader => some do
    let st ← sendHeader
    afterLine st rest
  | .txPayload => some do
    let st ← sendPayload
    afterLine st rest
  | .csDeassert => some do
    let st ← deassertLine
    afterLine st rest
  | .gap => some do
    wait .interLine
    rest
  | _ => none

/-- A refresh from its position on; before its first named step it has only taken the lock. -/
def resumeRefresh (r : Req) (q : Seq) : Act Unit :=
  match loopFrom q with
  | some loop => do
    let st ← loop
    finishRefresh r st
  | none => refreshBody r

/-- INIT from its position on; before its first named step it has only been accepted. -/
def resumeInit (r : Req) (q : Seq) : Act Unit :=
  match q.step with
  | .initStep k => initSequence r k.onward
  | _ => initSequence r InitStep.all

/-- DETACH from its position on; before its first named step it has only taken the lock. -/
def resumeDetach (r : Req) (q : Seq) : Act Unit :=
  match q.step with
  | .detachStep .displayLow => detachLower r
  | .detachStep .csLow => detachFinish r
  | _ => detachBody r

/-- The operation that runs goes on from the position at which the sequencer stands: `SEQ` advances only as the pseudocode
says, never backward (10_state.md R29). -/
def resume : Act Unit := do
  let s ← Act.read fun s => s
  match s.seq.unit with
  | .idle => pure ()
  | .init => resumeInit s.caller s.seq
  | .refresh => resumeRefresh s.caller s.seq
  | .detach => resumeDetach s.caller s.seq

/-- An input while the block is stuck in a call (60_exceptions.md R198): commands are issued and those that wait for the
lock wait for ever; the block itself does nothing until a reset (log 9). -/
def stuckInput : Input → Act Unit
  | .cmd r op => do
    issue r op
    match decodeOp op with
    | .ok .refresh => Act.update fun s => s.enqueue r .refresh
    | .ok .detach => Act.update fun s => s.enqueue r .detach
    | _ => pure ()
  | .wr a b => produceByte a b
  | .policy p => Act.update fun s => { s with policy := p }
  | .reset u => Act.update fun s => s.resetTo u
  | .answer _ => pure ()
  | .putOff => pure ()

end Sys2Proof.Machine
end

