-- ==== Sys2Proof/Machine/Turn.lean ====
section
/-! DEFINITION. What the block does in one step, by where it stands: inside a call, handed an instruction, idle, or inside
a unit. -/

namespace Sys2Proof.Machine

/-- A step while the block is inside a call that never returned: only the environment acts. -/
def stuckStep (s : State) : Host.Outcome State Fault Refusal :=
  match s.port with
  | some x :: rest => (stuckInput x).outcome { s with port := rest }
  | none :: rest => .next { s with port := rest }
  | [] => .next s

/-- The block's turn while it is idle: it serves a waiting request, if there is one; else it gives the oldest return that it
owes, if there is one (log 29). -/
def idleTurn (s : State) : Host.Outcome State Fault Refusal :=
  if s.waitq = [] then (answerNow 0).outcome s else serve.outcome s

/-- A step while no operation runs: a command at the port is decoded and run; any other input takes effect. -/
def idleStep (s : State) : Host.Outcome State Fault Refusal :=
  match s.port with
  | some (.cmd r op) :: rest =>
    match decode (.port r op) with
    | .ok i => exec i { s with port := rest }
    | .error _ => (reservedOpcode r op).outcome { s with port := rest }
  | some x :: rest => (applyInput x).outcome { s with port := rest }
  | none :: rest => idleTurn { s with port := rest }
  | [] => idleTurn s

/-- A step with the sequencer inside a unit: the operation goes on from there to its end. -/
def unitStep (s : State) : Host.Outcome State Fault Refusal := resume.outcome s

/-- A step with words handed to the block: they are decoded and the instruction is run. -/
def orderedStep (c : Code) (s : State) : Host.Outcome State Fault Refusal :=
  match decode c with
  | .ok i => exec i s
  | .error e => .refused (.noInstruction e)

end Sys2Proof.Machine
end

