-- ==== Sys2Proof/Machine/Step.lean ====
section
/-! DEFINITION. One step of the machine, and the placing of a word where the next step fetches. -/

namespace Sys2Proof.Machine

/-- One step (log 5): a whole host command with everything that arrives inside it, or one input, or an instruction handed
to the block, or what is left of the operation in which the sequencer stands. -/
def step (s : State) : Host.Outcome State Fault Refusal :=
  if s.inFlight.isSome then stuckStep s
  else
    match s.ordered with
    | some c => orderedStep c { s with ordered := none }
    | none => if s.seq.unit = .idle then idleStep s else unitStep s

/-- The instruction of a table word placed where the next step fetches it (log 6): a host command at the head of the
port, with the sequencer idle; the words of any other row handed to the block as its invoker would. -/
def State.withFetchWord (s : State) (nbits w : Nat) : State :=
  match tableCode nbits w with
  | some (.port r op) =>
    { s with
      inFlight := none
      ordered := none
      seq := { s.seq with unit := .idle }
      port := some (.cmd r op) :: s.port }
  | some c => { s with inFlight := none, ordered := some c }
  | none => s

end Sys2Proof.Machine
end

