-- ==== Sys2Proof/Machine/Observer.lean ====
section
/-! DEFINITION. What an observer of the trace sees: bytes on the wire, chip-select frames and their kinds
(30_encoding.md R89; 41_line_framer.md R130 to R132). -/

namespace Sys2Proof.Machine

/-- The bytes one event put on the wire: all of a call's bytes on success, a beginning of them on failure
(41_line_framer.md R132). -/
def Event.wireBytes : Event → List Byte
  | .tx bytes .ok => bytes
  | .tx bytes (.fail n) => bytes.take n
  | _ => []

/-- The bytes an event offered to the transport, sent or not. -/
def Event.offeredBytes : Event → List Byte
  | .tx bytes _ => bytes
  | _ => []

/-- The observer of 30_encoding.md R89: the frame being collected, if chip-select is asserted, and the trace. An assert
while a frame is still open (after a reset in mid-line) drops what was collected and reports no frame for it: R89 does not
say. DESIGN CHOICE (log 25). -/
def framesFrom : Option (List Byte) → List Event → List (List Byte)
  | _, [] => []
  | _, .set .chipSelect true _ :: es => framesFrom (some []) es
  | some bytes, .set .chipSelect false _ :: es => bytes :: framesFrom none es
  | some bytes, e :: es => framesFrom (some (bytes ++ e.wireBytes)) es
  | none, _ :: es => framesFrom none es

/-- The frames of a trace, each from a chip-select assert to the next deassert. -/
def frames (es : List Event) : List (List Byte) := framesFrom none es

/-- What a frame is, by its first byte (30_encoding.md R89). -/
inductive FrameKind where
  | lineFrame
  | clearFrame
  | empty
  | unknown
  deriving DecidableEq, Repr

/-- The kind of a frame. -/
def frameKind : List Byte → FrameKind
  | [] => .empty
  | b :: _ =>
    if b = Config.modeDataUpdate then .lineFrame
    else if b = Config.cmdAllClear then .clearFrame
    else .unknown

/-- Whether an event is one of the block's bus or control-line events. -/
def Event.isBus : Event → Bool
  | .set _ _ _ => true
  | .tx _ _ => true
  | _ => false

end Sys2Proof.Machine
end

