-- ==== Sys2Proof/Safety.lean ====
section
/-! DEFINITION. What the statements are said in: the invariant of the machine, quiet and answering environments, and the
event sequences the spec gives whole operations. -/

namespace Sys2Proof.Machine

/-! ## The environment of an operation -/

/-- Nothing arrives while an operation runs. -/
abbrev State.Quiet (s : State) : Prop := s.during = []

/-- Every call of the environment returns (60_exceptions.md R198), with any answer. -/
structure State.Returns (s : State) : Prop where
  ctl : ∀ n, s.ctlAnswers.get n ≠ .never
  tx : ∀ n, s.txAnswers.get n ≠ .never
  rd : ∀ n, s.rdAnswers.get n = true
  wait : ∀ n, s.waitAnswers.get n = true

/-- Every control-line call answers `ok`, every frame-buffer read and every wait ends; nothing is said of the transport and
`GRANT`. -/
structure State.LinesAnswerOk (s : State) : Prop where
  ctl : ∀ n, s.ctlAnswers.get n = .ok
  rd : ∀ n, s.rdAnswers.get n = true
  wait : ∀ n, s.waitAnswers.get n = true

/-- No input that could change the frame buffer is scheduled inside operations. -/
def Input.sparesBuffer : Input → Bool
  | .wr _ _ => false
  | .reset _ => false
  | _ => true

/-- The events of producers' byte writes: one for each that falls inside the buffer (20_memory.md R57; log 14). -/
def writeEvents (ws : List Host.Cell) : List Event :=
  (ws.filter fun w => decide (w.1 < 384000)).map fun w => .wr w.1 w.2

/-- The input is a change of the `POLICY` level. -/
def Input.isPolicy : Input → Bool
  | .policy _ => true
  | _ => false

/-- The input is not a reset. -/
def Input.isNoReset : Input → Bool
  | .reset _ => false
  | _ => true

/-- No reset is scheduled inside operations. -/
def State.noResetDuring (s : State) : Bool := s.during.all fun slot => slot.all Input.isNoReset

/-- The next input at the port, if there is one, is not a reset. -/
def State.noResetAtPort (s : State) : Bool :=
  match s.port with
  | some x :: _ => x.isNoReset
  | _ => true

/-- `CTL` after a call that answered `a` (10_state.md R21): changed only on `ok`. -/
def Ctl.answered (c : Ctl) (l : Line) (v : Bool) (a : CtlAnswer) : Ctl := if a = .ok then c.set l v else c

/-- The event of a control-line call that answered `a`. -/
def setEvent (l : Line) (v : Bool) (a : CtlAnswer) : Event := .set l v (decide (a = .ok))

/-- The event of a transport call that answered `a`; a call that never returns has none. -/
def txEvents (bytes : List Byte) : TxAnswer → List Event
  | .ok => [.tx bytes .ok]
  | .fail n => [.tx bytes (.fail (min n bytes.length))]
  | .never => []

/-! ## The invariant -/

/-- What holds between steps in every run, and what every step keeps. -/
structure State.Inv (s : State) : Prop where
  /-- The frame buffer is in canonical form, inside 0 to 383999 (20_memory.md R50). -/
  fb : s.fb.wf = true
  /-- `LB` has 152 bytes (10_state.md R27). -/
  lb : s.lb.length = 152
  /-- `HDR` has 7 bytes (10_state.md R28). -/
  hdr : s.hdr.length = 7
  /-- `com_inversion_input` is at its reset level (70_reset_and_hazards.md R222). -/
  com : s.ctl.comInversionInput = false
  /-- The lock is held exactly while a refresh or a teardown runs (10_state.md R25). -/
  lock : s.lock.isHeld = true ↔ s.seq.unit = .refresh ∨ s.seq.unit = .detach
  /-- `PSTATE = Initializing` exactly while INIT runs (42_display_controller.md R141). -/
  init : s.pstate = .initializing ↔ s.seq.unit = .init
  /-- Between steps no operation is running, unless the block is stuck inside a call (60_exceptions.md R196, R198). -/
  rest : s.inFlight = none → s.seq.unit = .idle
  /-- No instruction is handed to the block from outside (30_encoding.md R94; log 6). -/
  ordered : s.ordered = none

/-! ## Event sequences -/

/-- The 400 words of a row, at one moment (20_memory.md R51). -/
def rowWords (m : Memory) (y : Nat) : List Word :=
  (List.range 400).map fun x => m.pixel (1600 * y + 4 * x)

/-- The `RD` events of a row (40_pixel_encoder.md R105). -/
def rowEvents (m : Memory) (y : Nat) : List Event :=
  (List.range 400).map fun x => .rd (1600 * y + 4 * x) (m.pixel (1600 * y + 4 * x))

/-- The payload of a line (41_line_framer.md R120). -/
def rowPayload (m : Memory) (y : Nat) : List Byte := packRow (rowWords m y)

/-- What follows the reads of a line when every answer is `ok`: its frame and the delay (43_refresh_coordinator.md R174). -/
def frameEvents (m : Memory) (y : Nat) : List Event :=
  [.set .chipSelect true true, .tx (headerBytes (BitVec.ofNat 16 y)) .ok, .tx (rowPayload m y) .ok,
    .set .chipSelect false true, .wait .interLine]

/-- The events of one line of a refresh when every answer is `ok` (43_refresh_coordinator.md R174). -/
def lineEvents (m : Memory) (y : Nat) : List Event := rowEvents m y ++ frameEvents m y

/-- The events of the lines 0 to `n - 1`. -/
def linesEvents (m : Memory) (n : Nat) : List Event := (List.range n).flatMap (lineEvents m)

/-- How a refresh that got the lock at once begins: command and grant (43_refresh_coordinator.md R170). -/
def refreshOpening (r : Req) : List Event := [.cmd r 0b010#3, .acq r]

/-- How a refresh ends: release and return (43_refresh_coordinator.md R168). -/
def refreshClosing (r : Req) (st : Status) : List Event := [.rel r, .ret r st]

/-- The bus events of a line whose header call fails after `n` bytes (41_line_framer.md R126). -/
def headerFailureEvents (y n : Nat) : List Event :=
  [.set .chipSelect true true, .tx (headerBytes (BitVec.ofNat 16 y)) (.fail (min n 7)), .set .chipSelect false true]

/-- The bus events of a line whose payload call fails after `n` bytes (41_line_framer.md R126). -/
def payloadFailureEvents (m : Memory) (y n : Nat) : List Event :=
  [.set .chipSelect true true, .tx (headerBytes (BitVec.ofNat 16 y)) .ok, .tx (rowPayload m y) (.fail (min n 152)),
    .set .chipSelect false true]

/-- The state after a refresh of requester `r` in which every answer was `ok`, from the grant of the lock on, the events
before the lines being `opening` (43_refresh_coordinator.md R170). -/
def State.fullyRefreshed (s : State) (r : Req) (opening : List Event) : State :=
  { s with
    lb := rowPayload s.fb 239
    hdr := [0x01#8, 0x00#8, 0x00#8, 0x00#8, 0x00#8, 0x00#8, 0xEF#8]
    ctl := { s.ctl with chipSelect := false }
    seq := ⟨.idle, .gap, 239, 399⟩
    status := .ok
    policyS := s.policy
    px := []
    result := none
    caller := r
    ctlAnswers := s.ctlAnswers.drop 480
    txAnswers := s.txAnswers.drop 480
    rdAnswers := s.rdAnswers.drop 96000
    waitAnswers := s.waitAnswers.drop 240
    grants := s.grants.drop 240
    arb := s.arb.drop 1
    trace := s.trace ++ opening ++ linesEvents s.fb 240 ++ refreshClosing r .ok }

/-- The registers and locals hold what they hold at the sequencer's position inside line `LN` of a refresh that has gone
well so far (10_state.md R29; 43_refresh_coordinator.md R170). -/
def State.LineFits (s : State) : Prop :=
  match s.seq.step with
  | .encode => s.px = (rowWords s.fb s.seq.ln).take s.seq.pxi
  | .csAssert => s.hdr = headerBytes (BitVec.ofNat 16 s.seq.ln) ∧ s.lb = rowPayload s.fb s.seq.ln
  | .txHeader => s.hdr = headerBytes (BitVec.ofNat 16 s.seq.ln) ∧ s.lb = rowPayload s.fb s.seq.ln
  | .txPayload => s.lb = rowPayload s.fb s.seq.ln
  | .csDeassert => s.result = some .ok
  | .gap => True
  | _ => False

/-- The events of line `LN` still to come at the sequencer's position, that of the position's own call first. -/
def restOfLine (m : Memory) (q : Seq) : List Event :=
  match q.step with
  | .encode => (rowEvents m q.ln).drop q.pxi ++ frameEvents m q.ln
  | .csAssert => frameEvents m q.ln
  | .txHeader => (frameEvents m q.ln).drop 1
  | .txPayload => (frameEvents m q.ln).drop 2
  | .csDeassert => (frameEvents m q.ln).drop 3
  | .gap => (frameEvents m q.ln).drop 4
  | _ => []

/-- The event is an inter-line wait. -/
def Event.isGap : Event → Bool
  | .wait .interLine => true
  | _ => false

/-- The event is a chip-select assert, whatever it answered. -/
def Event.isAssert : Event → Bool
  | .set .chipSelect true _ => true
  | _ => false

/-- The events of INIT when every answer is `ok` (42_display_controller.md R144). -/
def initEvents : List Event :=
  [.set .comInversionModeSelect false true, .set .displayEnable false true, .wait .settle,
    .set .displayEnable true true, .set .chipSelect true true, .tx [0x08#8] .ok, .set .chipSelect false true,
    .wait .clear]

/-- The state in which a failed INIT leaves the block (42_display_controller.md R143), after `n` control-line calls, `m`
transport calls and `w` waits, failing at step `k` with the error `e`, the lines at `c`. -/
def State.initFailed (s : State) (r : Req) (k : InitStep) (e : Status) (c : Ctl) (n m w : Nat) (es : List Event) :
    State :=
  { s with
    pstate := .uninitialized
    seq := ⟨.idle, .initStep k, s.seq.ln, s.seq.pxi⟩
    status := e
    caller := r
    ctl := c
    ctlAnswers := s.ctlAnswers.drop n
    txAnswers := s.txAnswers.drop m
    waitAnswers := s.waitAnswers.drop w
    trace := s.trace ++ [.cmd r 0b001#3] ++ es ++ [.ret r e] }

/-- An event the block may emit: no `SET` of `com_inversion_input` (70_reset_and_hazards.md R222), no other command byte
than 0x01 and 0x08 (30_encoding.md R92 (c), (d)), no read that is misaligned or outside the buffer (20_memory.md R55). -/
inductive Event.Lawful : Event → Prop where
  | cmd (r : Req) (op : BitVec 3) : Event.Lawful (.cmd r op)
  | ret (r : Req) (st : Status) : Event.Lawful (.ret r st)
  | set (l : Line) (v ok : Bool) (h : l ≠ .comInversionInput) : Event.Lawful (.set l v ok)
  | txClear (res : TxResult) : Event.Lawful (.tx [0x08#8] res)
  | txHeader (n : Nat) (h : n < 240) (res : TxResult) :
      Event.Lawful (.tx [0x01#8, 0#8, 0#8, 0#8, 0#8, 0#8, BitVec.ofNat 8 n] res)
  | txPayload (px : List Word) (h : px.length = 400) (res : TxResult) : Event.Lawful (.tx (packRow px) res)
  | wait (d : Delay) : Event.Lawful (.wait d)
  | rd (a : Nat) (w : Word) (h4 : a % 4 = 0) (h : a ≤ 383996) : Event.Lawful (.rd a w)
  | wr (a : Nat) (b : Byte) (h : a < 384000) : Event.Lawful (.wr a b)
  | acq (r : Req) : Event.Lawful (.acq r)
  | rel (r : Req) : Event.Lawful (.rel r)

end Sys2Proof.Machine
end

