-- ==== Sys2Proof/Certificates/Slice0/Obligations.lean ====
section
/-! DEFINITION. The statements for the provers. Each docstring names the rule of spec/ it formalises. -/

open Sys2Proof Sys2Proof.Machine

/-! ## Encoding -/

/-- Decoding the words of a well-formed instruction gives it back, operands and all (30_encoding.md R81 to R90). -/
def Obligations.DecodeOfEncodeIsTheInstruction : Prop :=
  ∀ i : Instr, i.wf = true → decode (encode i) = .ok i

/-- Words that decode are the words of the instruction they decode to: no two words for one instruction, and every decoded
instruction is well-formed. -/
def Obligations.EncodeOfDecodeIsTheWords : Prop :=
  ∀ (c : Code) (i : Instr), decode c = .ok i → encode i = c ∧ i.wf = true

/-- Words written out from 30_encoding.md R86, R88, R90 and 95_test_vectors.md V23 decode to what they stand for. -/
def Obligations.SpecWordsDecode : Prop :=
  decode (.port 7 0b001#3) = .ok (.init 7) ∧
  decode (.port 7 0b010#3) = .ok (.refresh 7) ∧
  decode (.port 7 0b011#3) = .ok (.blank 7) ∧
  decode (.port 7 0b100#3) = .ok (.unblank 7) ∧
  decode (.port 7 0b101#3) = .ok (.detach 7) ∧
  decode (.wire [0x01#8, 0x00#8, 0x00#8, 0x00#8, 0x00#8, 0x00#8, 0xEF#8]) = .ok (.sendLine 239#16) ∧
  decode (.wire [0x00#8, 0x00#8]) = .ok .trailer ∧
  decode (.wire [0x08#8]) = .ok .allClear

/-- The 56-bit header pattern of the opcode table, for every line address its field can hold (30_encoding.md R95). -/
def Obligations.TableHeadersDecode : Prop :=
  ∀ a : Nat, a < 1024 → decodeTableWord 56 (0x01000000000000 + a) = some (.sendLine (BitVec.ofNat 16 a))

/-- A reserved opcode is answered `InvalidArgument` and does nothing else (30_encoding.md R92 (a)); any producers' writes may
fall between its two events (20_memory.md R57; how they are scheduled there is the model's, log 4). That its `CMD` event is
in the trace is the model's choice (log 24). -/
def Obligations.ReservedOpcodesAreAnswered : Prop :=
  ∀ (s : State) (r : Req) (op : BitVec 3) (rest : List (Option Input)) (ws : List Host.Cell),
    op = 0#3 ∨ op = 6#3 ∨ op = 7#3 → s.during.headD [] = ws.map (fun w => .wr w.1 w.2) →
    s.inFlight = none → s.ordered = none → s.seq.unit = .idle → s.pstate ≠ .initializing →
    s.port = some (.cmd r op) :: rest →
    step s = .next
      { s with
        port := rest
        fb := s.fb.produceAll ws
        during := s.during.tail
        status := .invalidArgument
        trace := s.trace ++ [.cmd r op] ++ writeEvents ws ++ [.ret r .invalidArgument] }

/-! ## What a step runs -/

/-- A step at an idle block whose next input is a command that decodes runs that instruction, the command taken from the
port and nothing else changed (10_state.md R29). -/
def Obligations.StepRunsTheCommandAtThePort : Prop :=
  ∀ (s : State) (r : Req) (op : BitVec 3) (rest : List (Option Input)) (i : Instr),
    s.inFlight = none → s.ordered = none → s.seq.unit = .idle → s.port = some (.cmd r op) :: rest →
    decode (.port r op) = .ok i →
    step s = exec i { s with port := rest }

/-- A step with words handed to the block runs the instruction they decode to, those words taken and nothing else changed;
words that are no instruction are refused with the decoder's name for why. That an internal operation's words are handed over
like this is the model's choice (log 6). -/
def Obligations.StepRunsTheInstructionHandedOver : Prop :=
  ∀ (s : State) (c : Code),
    s.inFlight = none → s.ordered = some c →
    (∀ i, decode c = .ok i → step s = exec i { s with ordered := none }) ∧
    (∀ e, decode c = .error e → step s = .refused (.noInstruction e))

/-- From every position of 10_state.md R29 the operation that runs goes on, forward and to its end: a refresh inside any
line, INIT at any of its eight steps, DETACH at either of its two calls (whose names are the model's, log 6). One step runs
all that is left of it (log 5). -/
def Obligations.UnitsGoOnFromEveryPosition : Prop :=
  (∀ s : State,
    s.Quiet → s.inFlight = none → s.ordered = none → s.seq.unit = .refresh → s.LineFits →
    s.LinesAnswerOk → (∀ n, s.txAnswers.get n = .ok) → (∀ n, s.grants.get n = true) →
    ∃ t : State, step s = .next t ∧ t.status = .ok ∧ t.lock = .free ∧ t.seq.unit = .idle ∧ t.fb = s.fb ∧
      t.pstate = s.pstate ∧ t.inFlight = none ∧
      t.trace = s.trace ++ restOfLine s.fb s.seq ++
        (linesAfter s.seq.ln).flatMap (fun n => lineEvents s.fb n) ++ refreshClosing s.caller .ok) ∧
  (∀ (s : State) (k : InitStep),
    s.Quiet → s.inFlight = none → s.ordered = none → s.seq.unit = .init → s.seq.step = .initStep k →
    s.LinesAnswerOk → s.txAnswers.get 0 = .ok →
    ∃ t : State, step s = .next t ∧ t.status = .ok ∧ t.pstate = .active ∧ t.seq.unit = .idle ∧ t.fb = s.fb ∧
      t.inFlight = none ∧
      t.trace = s.trace ++ initEvents.drop (8 - k.onward.length) ++ [.ret s.caller .ok]) ∧
  (∀ (s : State) (k : DetachStep),
    s.Quiet → s.inFlight = none → s.ordered = none → s.seq.unit = .detach → s.seq.step = .detachStep k →
    s.LinesAnswerOk →
    ∃ t : State, step s = .next t ∧ t.status = .ok ∧ t.pstate = .off ∧ t.lock = .free ∧ t.seq.unit = .idle ∧
      t.fb = s.fb ∧ t.inFlight = none ∧
      t.trace = s.trace ++ (if k = .displayLow then [.set .displayEnable false true] else []) ++
        [.set .chipSelect false true, .rel s.caller, .ret s.caller .ok])

/-! ## The pixel encoder -/

/-- `pack_row`: the length, the place of each channel bit, and zero everywhere else (40_pixel_encoder.md R102, R103). -/
def Obligations.PackRowPlacesEachChannelBit : Prop :=
  ∀ px : List Word,
    (packRow px).length = (3 * px.length + 7) / 8 + 2 ∧
    (∀ i k, i < px.length → k < 3 → serialBit (packRow px) (3 * i + k) = chan (px.getD i 0#32) k) ∧
    (∀ p, 3 * px.length ≤ p → serialBit (packRow px) p = false)

/-- The round-trip law and its converse (40_pixel_encoder.md R108). -/
def Obligations.UnpackRowInvertsPackRow : Prop :=
  (∀ px : List Word,
    unpackRow px.length (packRow px) = px.map fun w => (chan w 0, chan w 1, chan w 2)) ∧
  (∀ (px : List Word) (b : List Byte),
    b.length = (3 * px.length + 7) / 8 + 2 →
    (∀ p, 3 * px.length ≤ p → serialBit b p = false) →
    (px.map fun w => (chan w 0, chan w 1, chan w 2)) = unpackRow px.length b →
    packRow px = b)

/-- ENCODE_ROW's effect and frame: 400 reads at rising offsets, `LB` rewritten from them, nothing else but the sequencer's
pixel index and the sampled words, which are used up (40_pixel_encoder.md R105). -/
def Obligations.EncodeRowPacksTheRow : Prop :=
  ∀ (s : State) (y : Nat),
    y < 240 → s.Quiet → (∀ n, n < 400 → s.rdAnswers.get n = true) →
    exec (.encodeRow y) s = .next
      { s with
        lb := packRow (rowWords s.fb y)
        px := []
        seq := ⟨s.seq.unit, s.seq.step, s.seq.ln, 399⟩
        rdAnswers := s.rdAnswers.drop 400
        trace := s.trace ++ rowEvents s.fb y }

/-- A row that is not one of the 240 is not read: ENCODE_ROW stops at its first read, by name (log 16). -/
def Obligations.EncodeRowOutsideThePanelFaults : Prop :=
  ∀ (s : State) (y : Nat),
    240 ≤ y → s.Quiet → exec (.encodeRow y) s = .fault (.noSuchAddress (1600 * y))

/-- A write that falls between two reads of a row is seen by the later reads and not by the earlier ones
(20_memory.md R59). -/
def Obligations.TearingFollowsTheOrderOfEvents : Prop :=
  ∀ (s : State) (y k a : Nat) (b : Byte),
    y < 240 → k < 400 → a < 384000 → (∀ n, n < 400 → s.rdAnswers.get n = true) →
    s.during = List.replicate k [] ++ [[.wr a b]] →
    exec (.encodeRow y) s = .next
      { s with
        fb := s.fb.write a b
        lb := packRow ((rowWords s.fb y).take k ++ (rowWords (s.fb.write a b) y).drop k)
        px := []
        seq := ⟨s.seq.unit, s.seq.step, s.seq.ln, 399⟩
        rdAnswers := s.rdAnswers.drop 400
        during := []
        trace := s.trace ++ (rowEvents s.fb y).take k ++ [.wr a b] ++ (rowEvents (s.fb.write a b) y).drop k }

/-- Of a pixel word only bits 16, 8 and 0 reach the line buffer (20_memory.md R54; 40_pixel_encoder.md R101). -/
def Obligations.OnlyThreeBitsOfAPixelMatter : Prop :=
  ∀ (s : State) (m : Memory) (y : Nat),
    y < 240 → s.Quiet → (∀ n, n < 400 → s.rdAnswers.get n = true) →
    (∀ x, x < 400 → ∀ k, k < 3 →
      (m.pixel (1600 * y + 4 * x)).getLsbD (8 * k) = (s.fb.pixel (1600 * y + 4 * x)).getLsbD (8 * k)) →
    ∃ t u : State, exec (.encodeRow y) s = .next t ∧ exec (.encodeRow y) { s with fb := m } = .next u ∧ u.lb = t.lb

/-- TRAILER: the last two bytes of the line buffer are zero, nothing else changes (30_encoding.md R86). R86 has the encoder
produce them as part of its output: that TRAILER is an operation of its own on `LB` is the model's choice (log 6), as is
that it leaves no status (log 8). -/
def Obligations.TrailerWritesTwoZeroBytes : Prop :=
  ∀ s : State, exec .trailer s = .next { s with lb := s.lb.take 150 ++ [0x00#8, 0x00#8] }

/-! ## The frame buffer -/

/-- A producer's byte write is seen at its address and nowhere else; one outside the buffer never reaches it
(20_memory.md R57, R59). That one outside leaves no event either is deduced (log 14). -/
def Obligations.ProducerWriteIsSeenByLaterReads : Prop :=
  ∀ (s : State) (a : Nat) (b : Byte) (rest : List (Option Input)),
    s.inFlight = none → s.ordered = none → s.seq.unit = .idle → s.port = some (.wr a b) :: rest →
    (a < 384000 →
      ∃ m, step s = .next { s with port := rest, fb := m, trace := s.trace ++ [.wr a b] } ∧
        m.read a = b ∧ ∀ k, k ≠ a → m.read k = s.fb.read k) ∧
    (384000 ≤ a → step s = .next { s with port := rest })

/-- The pixel word at an offset is little-endian in the byte array (20_memory.md R53). -/
def Obligations.PixelWordIsLittleEndian : Prop :=
  ∀ (m : Memory) (a : Nat),
    (m.pixel a).toNat =
      (m.read a).toNat + 2 ^ 8 * (m.read (a + 1)).toNat + 2 ^ 16 * (m.read (a + 2)).toNat +
        2 ^ 24 * (m.read (a + 3)).toNat

/-- The block never writes the frame buffer: no instruction changes it, unless a producer's write or a reset arrives
inside it (20_memory.md R56). -/
def Obligations.NoInstructionWritesTheFrameBuffer : Prop :=
  ∀ (i : Instr) (s t : State),
    (s.during.all fun slot => slot.all Input.sparesBuffer) = true → exec i s = .next t → t.fb = s.fb

/-! ## The line framer -/

/-- The header of a line, by the formula and for every line that is sent (30_encoding.md R84; 41_line_framer.md R123). -/
def Obligations.HeaderCarriesTheLineAddress : Prop :=
  ∀ line : BitVec 16,
    headerBytes line =
      [0x01#8, 0x00#8, 0x00#8, 0x00#8, 0x00#8, BitVec.ofNat 8 (line.toNat / 256 % 4),
        BitVec.ofNat 8 (line.toNat % 256)] ∧
    (line.toNat < 240 →
      headerBytes line =
        [0x01#8, 0x00#8, 0x00#8, 0x00#8, 0x00#8, 0x00#8, BitVec.ofNat 8 line.toNat])

/-- A line index of 240 or more is rejected with no bus activity, whatever `GRANT` would answer (41_line_framer.md R121,
R128). No register takes the status; `result` hands it to the invoker (log 8). -/
def Obligations.SendLineRejectsLinesOutOfRange : Prop :=
  ∀ (s : State) (line : BitVec 16),
    240 ≤ line.toNat → exec (.sendLine line) s = .next { s with result := some .invalidArgument }

/-- Without a line buffer SEND_LINE returns `ResourceExhausted` with no bus activity (41_line_framer.md R122).
No register takes the status; `result` hands it to the invoker (log 8). -/
def Obligations.SendLineWithoutBufferSendsNothing : Prop :=
  ∀ (s : State) (line : BitVec 16),
    line.toNat < 240 → s.grants.get 0 = false →
    exec (.sendLine line) s = .next { s with result := some .resourceExhausted, grants := s.grants.drop 1 }

/-- SEND_LINE's success: one chip-select pair around two transport calls, whatever the chip-select calls answer
(41_line_framer.md R124, R125, R127).
No register takes the status; `result` hands it to the invoker (log 8). -/
def Obligations.SendLineFramesOneLine : Prop :=
  ∀ (s : State) (line : BitVec 16),
    s.Quiet → line.toNat < 240 → s.grants.get 0 = true →
    s.txAnswers.get 0 = .ok → s.txAnswers.get 1 = .ok →
    s.ctlAnswers.get 0 ≠ .never → s.ctlAnswers.get 1 ≠ .never →
    exec (.sendLine line) s = .next
      { s with
        hdr := headerBytes line
        ctl := (s.ctl.answered .chipSelect true (s.ctlAnswers.get 0)).answered .chipSelect false (s.ctlAnswers.get 1)
        seq := ⟨s.seq.unit, .csDeassert, s.seq.ln, s.seq.pxi⟩
        result := some .ok
        grants := s.grants.drop 1
        ctlAnswers := s.ctlAnswers.drop 2
        txAnswers := s.txAnswers.drop 2
        trace := s.trace ++
          [setEvent .chipSelect true (s.ctlAnswers.get 0), .tx (headerBytes line) .ok, .tx s.lb .ok,
            setEvent .chipSelect false (s.ctlAnswers.get 1)] }

/-- A failing header call suppresses the payload; after either failure chip-select is deasserted and the status is
`TransportFailure` (41_line_framer.md R126).
No register takes the status; `result` hands it to the invoker (log 8). -/
def Obligations.SendLineDeassertsAfterTransportFailure : Prop :=
  ∀ (s : State) (line : BitVec 16) (n : Nat),
    s.Quiet → line.toNat < 240 → s.grants.get 0 = true →
    s.ctlAnswers.get 0 ≠ .never → s.ctlAnswers.get 1 ≠ .never →
    (s.txAnswers.get 0 = .fail n →
      exec (.sendLine line) s = .next
        { s with
          hdr := headerBytes line
          ctl := (s.ctl.answered .chipSelect true (s.ctlAnswers.get 0)).answered .chipSelect false (s.ctlAnswers.get 1)
          seq := ⟨s.seq.unit, .csDeassert, s.seq.ln, s.seq.pxi⟩
          result := some .transportFailure
          grants := s.grants.drop 1
          ctlAnswers := s.ctlAnswers.drop 2
          txAnswers := s.txAnswers.drop 1
          trace := s.trace ++
            [setEvent .chipSelect true (s.ctlAnswers.get 0), .tx (headerBytes line) (.fail (min n 7)),
              setEvent .chipSelect false (s.ctlAnswers.get 1)] }) ∧
    (s.txAnswers.get 0 = .ok → s.txAnswers.get 1 = .fail n →
      exec (.sendLine line) s = .next
        { s with
          hdr := headerBytes line
          ctl := (s.ctl.answered .chipSelect true (s.ctlAnswers.get 0)).answered .chipSelect false (s.ctlAnswers.get 1)
          seq := ⟨s.seq.unit, .csDeassert, s.seq.ln, s.seq.pxi⟩
          result := some .transportFailure
          grants := s.grants.drop 1
          ctlAnswers := s.ctlAnswers.drop 2
          txAnswers := s.txAnswers.drop 2
          trace := s.trace ++
            [setEvent .chipSelect true (s.ctlAnswers.get 0), .tx (headerBytes line) .ok,
              .tx s.lb (.fail (min n s.lb.length)), setEvent .chipSelect false (s.ctlAnswers.get 1)] })

/-- The byte-count law: what the events of a SEND_LINE are, read off the status it returns (41_line_framer.md R130). That
the returned status stands in `result` is the model's choice (log 8). -/
def Obligations.SendLineByteCountLaw : Prop :=
  ∀ (s t : State) (line : BitVec 16),
    s.Quiet → s.lb.length = 152 → s.inFlight = none →
    exec (.sendLine line) s = .next t → t.inFlight = none →
    ∃ (st : Status) (es : List Event), t.result = some st ∧ t.trace = s.trace ++ es ∧ t.status = s.status ∧
      st ≠ .controlLineFailure ∧
      (st = .ok → ∃ a b h p,
        es = [.set .chipSelect true a, .tx h .ok, .tx p .ok, .set .chipSelect false b] ∧ (h ++ p).length = 159) ∧
      (st = .invalidArgument ∨ st = .resourceExhausted → es = []) ∧
      (st = .transportFailure → ∃ a b h p n,
        es = [.set .chipSelect true a, .tx h (.fail n), .set .chipSelect false b] ∨
        es = [.set .chipSelect true a, .tx h .ok, .tx p (.fail n), .set .chipSelect false b])

/-- The bit-serial view of a line frame (41_line_framer.md R131). -/
def Obligations.LineFrameBitByBit : Prop :=
  ∀ (line : BitVec 16) (px : List Word),
    px.length = 400 →
    (serialBits (headerBytes line ++ packRow px)).length = 1272 ∧
    (∀ p, p < 7 → serialBit (headerBytes line ++ packRow px) p = false) ∧
    serialBit (headerBytes line ++ packRow px) 7 = true ∧
    (∀ p, 8 ≤ p → p ≤ 45 → serialBit (headerBytes line ++ packRow px) p = false) ∧
    (∀ j, j < 10 → serialBit (headerBytes line ++ packRow px) (46 + j) = line.getLsbD (9 - j)) ∧
    (∀ i k, i < 400 → k < 3 →
      serialBit (headerBytes line ++ packRow px) (56 + 3 * i + k) = chan (px.getD i 0#32) k) ∧
    (∀ p, 1256 ≤ p → p ≤ 1271 → serialBit (headerBytes line ++ packRow px) p = false)

/-- A BLANK may fall between the chip-select assert and the header of a line: it takes effect there and the line goes on
(42_display_controller.md R149). What the line returns stands in `result` (log 8); that BLANK's `RET` falls inside as well,
whoever holds the lock, is deduced (log 30). -/
def Obligations.BlankFallsInsideALine : Prop :=
  ∀ (s : State) (line : BitVec 16) (r : Req),
    s.during = [[], [.cmd r 0b011#3]] → line.toNat < 240 → s.pstate = .active → s.seq.unit ≠ .init →
    s.grants.get 0 = true → (∀ n, n < 2 → s.txAnswers.get n = .ok) → (∀ n, n < 3 → s.ctlAnswers.get n = .ok) →
    exec (.sendLine line) s = .next
      { s with
        hdr := headerBytes line
        pstate := .blanked
        ctl := ⟨false, s.ctl.comInversionInput, false, s.ctl.comInversionModeSelect⟩
        seq := ⟨s.seq.unit, .csDeassert, s.seq.ln, s.seq.pxi⟩
        status := .ok
        result := some .ok
        grants := s.grants.drop 1
        ctlAnswers := s.ctlAnswers.drop 3
        txAnswers := s.txAnswers.drop 2
        during := []
        trace := s.trace ++
          [.set .chipSelect true true, .cmd r 0b011#3, .set .displayEnable false true, .ret r .ok,
            .tx (headerBytes line) .ok, .tx s.lb .ok, .set .chipSelect false true] }

/-- Each of the four calls of SEND_LINE that never returns leaves the block stuck inside it, chip-select as the calls before
it left it, with nothing returned (60_exceptions.md R198; 10_state.md R35). That the call stands in `inFlight` and leaves no
event is deduced (log 9). -/
def Obligations.SendLineStaysInACallThatNeverReturns : Prop :=
  ∀ (s : State) (line : BitVec 16) (n : Nat),
    s.Quiet → line.toNat < 240 → s.grants.get 0 = true →
    (s.ctlAnswers.get 0 = .never →
      exec (.sendLine line) s = .next
        { s with
          hdr := headerBytes line
          seq := ⟨s.seq.unit, .csAssert, s.seq.ln, s.seq.pxi⟩
          inFlight := some (.ctlSet .chipSelect true)
          grants := s.grants.drop 1
          ctlAnswers := s.ctlAnswers.drop 1 }) ∧
    (s.ctlAnswers.get 0 ≠ .never → s.txAnswers.get 0 = .never →
      exec (.sendLine line) s = .next
        { s with
          hdr := headerBytes line
          ctl := s.ctl.answered .chipSelect true (s.ctlAnswers.get 0)
          seq := ⟨s.seq.unit, .txHeader, s.seq.ln, s.seq.pxi⟩
          inFlight := some (.tx (headerBytes line))
          grants := s.grants.drop 1
          ctlAnswers := s.ctlAnswers.drop 1
          txAnswers := s.txAnswers.drop 1
          trace := s.trace ++ [setEvent .chipSelect true (s.ctlAnswers.get 0)] }) ∧
    (s.ctlAnswers.get 0 ≠ .never → s.txAnswers.get 0 = .ok → s.txAnswers.get 1 = .never →
      exec (.sendLine line) s = .next
        { s with
          hdr := headerBytes line
          ctl := s.ctl.answered .chipSelect true (s.ctlAnswers.get 0)
          seq := ⟨s.seq.unit, .txPayload, s.seq.ln, s.seq.pxi⟩
          inFlight := some (.tx s.lb)
          grants := s.grants.drop 1
          ctlAnswers := s.ctlAnswers.drop 1
          txAnswers := s.txAnswers.drop 2
          trace := s.trace ++ [setEvent .chipSelect true (s.ctlAnswers.get 0), .tx (headerBytes line) .ok] }) ∧
    (s.ctlAnswers.get 0 ≠ .never → s.txAnswers.get 0 = .fail n → s.ctlAnswers.get 1 = .never →
      exec (.sendLine line) s = .next
        { s with
          hdr := headerBytes line
          ctl := s.ctl.answered .chipSelect true (s.ctlAnswers.get 0)
          seq := ⟨s.seq.unit, .csDeassert, s.seq.ln, s.seq.pxi⟩
          result := some .transportFailure
          inFlight := some (.ctlSet .chipSelect false)
          grants := s.grants.drop 1
          ctlAnswers := s.ctlAnswers.drop 2
          txAnswers := s.txAnswers.drop 1
          trace := s.trace ++
            [setEvent .chipSelect true (s.ctlAnswers.get 0), .tx (headerBytes line) (.fail (min n 7))] }) ∧
    (s.ctlAnswers.get 0 ≠ .never → s.txAnswers.get 0 = .ok → s.txAnswers.get 1 ≠ .never → s.ctlAnswers.get 1 = .never →
      exec (.sendLine line) s = .next
        { s with
          hdr := headerBytes line
          ctl := s.ctl.answered .chipSelect true (s.ctlAnswers.get 0)
          seq := ⟨s.seq.unit, .csDeassert, s.seq.ln, s.seq.pxi⟩
          result := some (if s.txAnswers.get 1 = .ok then .ok else .transportFailure)
          inFlight := some (.ctlSet .chipSelect false)
          grants := s.grants.drop 1
          ctlAnswers := s.ctlAnswers.drop 2
          txAnswers := s.txAnswers.drop 2
          trace := s.trace ++
            [setEvent .chipSelect true (s.ctlAnswers.get 0), .tx (headerBytes line) .ok] ++
              txEvents s.lb (s.txAnswers.get 1) })

/-- The other calls that may never return: a frame-buffer read (the words sampled before it stay), the clear command, the
control line of BLANK and UNBLANK, and a wait, in INIT and between the lines of a refresh (60_exceptions.md R198;
10_state.md R35). What a call in flight looks like is deduced (log 9), and that waits are among them (log 19). -/
def Obligations.CallsThatNeverReturnHoldTheBlock : Prop :=
  (∀ (s : State) (y : Nat) (k : Fin 400),
    y < 240 → s.Quiet → (∀ n, n < k.val → s.rdAnswers.get n = true) → s.rdAnswers.get k = false →
    exec (.encodeRow y) s = .next
      { s with
        px := (rowWords s.fb y).take k
        seq := ⟨s.seq.unit, s.seq.step, s.seq.ln, k⟩
        inFlight := some (.rd (1600 * y + 4 * k))
        rdAnswers := s.rdAnswers.drop (k + 1)
        trace := s.trace ++ (rowEvents s.fb y).take k }) ∧
  (∀ s : State,
    s.Quiet → s.txAnswers.get 0 = .never →
    exec .allClear s = .next { s with inFlight := some (.tx [0x08#8]), txAnswers := s.txAnswers.drop 1 }) ∧
  (∀ (s : State) (r : Req),
    s.pstate = .active ∨ s.pstate = .blanked → s.seq.unit ≠ .init → s.ctlAnswers.get 0 = .never →
    exec (.blank r) s = .next
      { s with
        inFlight := some (.ctlSet .displayEnable false)
        ctlAnswers := s.ctlAnswers.drop 1
        trace := s.trace ++ [.cmd r 0b011#3] } ∧
    exec (.unblank r) s = .next
      { s with
        inFlight := some (.ctlSet .displayEnable true)
        ctlAnswers := s.ctlAnswers.drop 1
        trace := s.trace ++ [.cmd r 0b100#3] }) ∧
  (∀ (s : State) (r : Req),
    s.Quiet → s.pstate = .uninitialized → s.seq.unit = .idle → (∀ n, n < 2 → s.ctlAnswers.get n = .ok) →
    s.waitAnswers.get 0 = false →
    exec (.init r) s = .next
      { s with
        pstate := .initializing
        seq := ⟨.init, .initStep .settle, s.seq.ln, s.seq.pxi⟩
        inFlight := some (.wait .settle)
        caller := r
        ctl := { s.ctl with comInversionModeSelect := false, displayEnable := false }
        ctlAnswers := s.ctlAnswers.drop 2
        waitAnswers := s.waitAnswers.drop 1
        trace := s.trace ++
          [.cmd r 0b001#3, .set .comInversionModeSelect false true, .set .displayEnable false true] }) ∧
  (∀ (s : State) (r : Req),
    s.Quiet → s.pstate = .active ∨ s.pstate = .blanked → s.seq.unit = .idle → s.lock = .free → s.waitq = [] →
    (∀ n, s.ctlAnswers.get n = .ok) → (∀ n, s.txAnswers.get n = .ok) → (∀ n, s.rdAnswers.get n = true) →
    (∀ n, s.grants.get n = true) → s.waitAnswers.get 0 = false →
    ∃ t : State, exec (.refresh r) s = .next t ∧ t.inFlight = some (.wait .interLine) ∧ t.lock = .held r ∧
      t.seq.unit = .refresh ∧ t.seq.step = .gap ∧
      t.trace = s.trace ++ refreshOpening r ++ rowEvents s.fb 0 ++ (frameEvents s.fb 0).take 4)

/-- An observer that cuts the trace of `n` lines at chip-select finds `n` frames of 159 bytes, header then payload
(30_encoding.md R89; 43_refresh_coordinator.md R174). -/
def Obligations.ObserverFindsOneFramePerLine : Prop :=
  ∀ (m : Memory) (n : Nat),
    frames (linesEvents m n) =
      (List.range n).map (fun y => headerBytes (BitVec.ofNat 16 y) ++ rowPayload m y) ∧
    ∀ f ∈ frames (linesEvents m n), f.length = 159 ∧ frameKind f = .lineFrame

/-! ## The display controller -/

/-- INIT's success: the eight steps in order, then `Active` (42_display_controller.md R142, R144). -/
def Obligations.InitBringsTheDisplayUp : Prop :=
  ∀ (s : State) (r : Req),
    s.Quiet → s.pstate = .uninitialized → s.seq.unit = .idle →
    (∀ n, n < 5 → s.ctlAnswers.get n = .ok) → s.txAnswers.get 0 = .ok → (∀ n, n < 2 → s.waitAnswers.get n = true) →
    exec (.init r) s = .next
      { s with
        pstate := .active
        seq := ⟨.idle, .initStep .clearWait, s.seq.ln, s.seq.pxi⟩
        status := .ok
        caller := r
        ctl := ⟨false, s.ctl.comInversionInput, true, false⟩
        ctlAnswers := s.ctlAnswers.drop 5
        txAnswers := s.txAnswers.drop 1
        waitAnswers := s.waitAnswers.drop 2
        trace := s.trace ++ [.cmd r 0b001#3] ++ initEvents ++ [.ret r .ok] }

/-- INIT's failures, one failing step at a time: nothing after the failing call but one deassert when chip-select may be
asserted; `PSTATE` back at `Uninitialized` (42_display_controller.md R143). -/
def Obligations.InitFailsAtTheFirstFailingStep : Prop :=
  ∀ (s : State) (r : Req) (j : Nat),
    s.Quiet → s.pstate = .uninitialized → s.seq.unit = .idle → s.waitAnswers.get 0 = true →
    (s.ctlAnswers.get 0 = .fail →
      exec (.init r) s = .next (s.initFailed r .modeSelectLow .controlLineFailure s.ctl 1 0 0
        [.set .comInversionModeSelect false false])) ∧
    (s.ctlAnswers.get 0 = .ok → s.ctlAnswers.get 1 = .fail →
      exec (.init r) s = .next (s.initFailed r .displayLow .controlLineFailure
        { s.ctl with comInversionModeSelect := false } 2 0 0
        [.set .comInversionModeSelect false true, .set .displayEnable false false])) ∧
    ((∀ n, n < 2 → s.ctlAnswers.get n = .ok) → s.ctlAnswers.get 2 = .fail →
      exec (.init r) s = .next (s.initFailed r .displayHigh .controlLineFailure
        { s.ctl with comInversionModeSelect := false, displayEnable := false } 3 0 1
        [.set .comInversionModeSelect false true, .set .displayEnable false true, .wait .settle,
          .set .displayEnable true false])) ∧
    ((∀ n, n < 3 → s.ctlAnswers.get n = .ok) → s.ctlAnswers.get 3 = .fail → s.ctlAnswers.get 4 ≠ .never →
      exec (.init r) s = .next (s.initFailed r .csAssert .controlLineFailure
        (Ctl.answered { s.ctl with comInversionModeSelect := false, displayEnable := true } .chipSelect false
          (s.ctlAnswers.get 4)) 5 0 1
        [.set .comInversionModeSelect false true, .set .displayEnable false true, .wait .settle,
          .set .displayEnable true true, .set .chipSelect true false,
          setEvent .chipSelect false (s.ctlAnswers.get 4)])) ∧
    ((∀ n, n < 4 → s.ctlAnswers.get n = .ok) → s.txAnswers.get 0 = .fail j → s.ctlAnswers.get 4 ≠ .never →
      exec (.init r) s = .next (s.initFailed r .allClear .transportFailure
        (Ctl.answered
          { s.ctl with comInversionModeSelect := false, displayEnable := true, chipSelect := true } .chipSelect false
          (s.ctlAnswers.get 4)) 5 1 1
        [.set .comInversionModeSelect false true, .set .displayEnable false true, .wait .settle,
          .set .displayEnable true true, .set .chipSelect true true, .tx [0x08#8] (.fail (min j 1)),
          setEvent .chipSelect false (s.ctlAnswers.get 4)])) ∧
    ((∀ n, n < 4 → s.ctlAnswers.get n = .ok) → s.txAnswers.get 0 = .ok → s.ctlAnswers.get 4 = .fail →
      exec (.init r) s = .next (s.initFailed r .csDeassert .controlLineFailure
        { s.ctl with comInversionModeSelect := false, displayEnable := true, chipSelect := true } 5 1 1
        [.set .comInversionModeSelect false true, .set .displayEnable false true, .wait .settle,
          .set .displayEnable true true, .set .chipSelect true true, .tx [0x08#8] .ok,
          .set .chipSelect false false]))

/-- INIT outside `Uninitialized` changes nothing and is answered `InvalidArgument` (42_display_controller.md R153). Nothing
is scheduled between its two events here; AnswersMayComeLater says what may be. -/
def Obligations.InitOutsideUninitializedIsTurnedAway : Prop :=
  ∀ (s : State) (r : Req),
    s.pstate = .active ∨ s.pstate = .blanked ∨ s.pstate = .off → s.seq.unit ≠ .init → s.during.headD [] = [] →
    exec (.init r) s = .next
      { s with
        during := s.during.tail
        status := .invalidArgument
        trace := s.trace ++ [.cmd r 0b001#3, .ret r .invalidArgument] }

/-- A host command issued while INIT runs has no meaning and is refused, whether it comes to `exec` or arrives inside the
INIT sequence (93_implementation_defined.md U14; 42_display_controller.md R145). The refusal is the model's (log 10). -/
def Obligations.CommandDuringInitIsRefused : Prop :=
  (∀ (s : State) (h : HostOp) (r : Req),
    s.seq.unit = .init ∨ s.pstate = .initializing →
    exec (h.toInstr r) s = .refused .commandDuringInit) ∧
  (∀ (s : State) (r q : Req) (op : BitVec 3) (later : List (List Input)),
    s.pstate = .uninitialized → s.seq.unit = .idle → s.during = [.cmd q op] :: later →
    exec (.init r) s = .refused .commandDuringInit)

/-- An INIT that would be accepted while another operation runs is refused: "INIT is not concurrent with anything"
(42_display_controller.md R145), whether it comes to `exec` or arrives inside a REFRESH. One that meets a REFRESH or a DETACH
which only waits, nothing running, is not refused: it is taken first, at the head of the port, and runs before the grant. Both
the refusal and that order are the model's choice (log 10). -/
def Obligations.InitMeetingAnOperationIsRefused : Prop :=
  (∀ (s : State) (r : Req),
    s.pstate = .uninitialized → s.seq.unit = .refresh ∨ s.seq.unit = .detach →
    exec (.init r) s = .refused .initDuringOperation) ∧
  (∀ (s : State) (r q : Req) (later : List (List Input)),
    s.pstate = .uninitialized → s.seq.unit = .idle → s.lock = .free → s.waitq = [] →
    s.during = [] :: [.cmd q 0b001#3] :: later →
    exec (.refresh r) s = .refused .initDuringOperation) ∧
  (∀ (s : State) (r q : Req) (slot : List Input) (later : List (List Input)),
    s.inFlight = none → s.ordered = none → s.pstate = .uninitialized → s.seq.unit = .idle →
    s.during = (.cmd q 0b001#3 :: slot) :: later →
    ∃ t u : State, exec (.refresh r) s = .next t ∧ exec (.detach r) s = .next u ∧
      t = { s with
        waitq := s.waitq ++ [(r, .refresh)]
        during := later
        port := some (.cmd q 0b001#3) :: slot.map some ++ s.port
        trace := s.trace ++ [.cmd r 0b010#3] } ∧
      u = { s with
        waitq := s.waitq ++ [(r, .detach)]
        during := later
        port := some (.cmd q 0b001#3) :: slot.map some ++ s.port
        trace := s.trace ++ [.cmd r 0b101#3] } ∧
      step t = exec (.init q) { t with port := slot.map some ++ s.port } ∧
      step u = exec (.init q) { u with port := slot.map some ++ s.port })

/-- BLANK: display-enable low, `Blanked`, `OK`, no bus traffic, in `Active` (42_display_controller.md R146) and in `Blanked`
(R148), whatever the call answers (R149). -/
def Obligations.BlankLowersDisplayEnable : Prop :=
  ∀ (s : State) (r : Req),
    s.pstate = .active ∨ s.pstate = .blanked → s.seq.unit ≠ .init → s.ctlAnswers.get 0 ≠ .never →
    exec (.blank r) s = .next
      { s with
        pstate := .blanked
        status := .ok
        ctl := s.ctl.answered .displayEnable false (s.ctlAnswers.get 0)
        ctlAnswers := s.ctlAnswers.drop 1
        trace := s.trace ++
          [.cmd r 0b011#3, setEvent .displayEnable false (s.ctlAnswers.get 0), .ret r .ok] }

/-- UNBLANK: display-enable high, `Active`, `OK`, no bus traffic, in `Blanked` (42_display_controller.md R147) and in
`Active` (R148), whatever the call answers (R149). -/
def Obligations.UnblankRaisesDisplayEnable : Prop :=
  ∀ (s : State) (r : Req),
    s.pstate = .active ∨ s.pstate = .blanked → s.seq.unit ≠ .init → s.ctlAnswers.get 0 ≠ .never →
    exec (.unblank r) s = .next
      { s with
        pstate := .active
        status := .ok
        ctl := s.ctl.answered .displayEnable true (s.ctlAnswers.get 0)
        ctlAnswers := s.ctlAnswers.drop 1
        trace := s.trace ++
          [.cmd r 0b100#3, setEvent .displayEnable true (s.ctlAnswers.get 0), .ret r .ok] }

/-- BLANK and UNBLANK in `Uninitialized` or `Off` emit no event of their own and change nothing
(42_display_controller.md R148). -/
def Obligations.BlankingWithoutAPanelIsTurnedAway : Prop :=
  ∀ (s : State) (r : Req),
    s.pstate = .uninitialized ∨ s.pstate = .off → s.seq.unit ≠ .init →
    exec (.blank r) s = .next
      { s with
        status := .invalidArgument
        trace := s.trace ++ [.cmd r 0b011#3, .ret r .invalidArgument] } ∧
    exec (.unblank r) s = .next
      { s with
        status := .invalidArgument
        trace := s.trace ++ [.cmd r 0b100#3, .ret r .invalidArgument] }

/-- DETACH with the lock free: display-enable low, chip-select low, `Off`, the lock released
(42_display_controller.md R150). The name of the sequencer's last position is the model's (log 6). -/
def Obligations.DetachTurnsTheDisplayOff : Prop :=
  ∀ (s : State) (r : Req),
    s.Quiet → s.pstate ≠ .off → s.pstate ≠ .initializing → s.seq.unit = .idle → s.lock = .free → s.waitq = [] →
    s.ctlAnswers.get 0 ≠ .never → s.ctlAnswers.get 1 ≠ .never →
    exec (.detach r) s = .next
      { s with
        pstate := .off
        status := .ok
        seq := ⟨.idle, .detachStep .csLow, s.seq.ln, s.seq.pxi⟩
        caller := r
        ctl := (s.ctl.answered .displayEnable false (s.ctlAnswers.get 0)).answered .chipSelect false
          (s.ctlAnswers.get 1)
        ctlAnswers := s.ctlAnswers.drop 2
        arb := s.arb.drop 1
        trace := s.trace ++
          [.cmd r 0b101#3, .acq r, setEvent .displayEnable false (s.ctlAnswers.get 0),
            setEvent .chipSelect false (s.ctlAnswers.get 1), .rel r, .ret r .ok] }

/-- DETACH in `Off` changes nothing (42_display_controller.md R151); any producers' writes may fall between its two events
(20_memory.md R57; how they are scheduled there is the model's, log 4). -/
def Obligations.DetachWhenOffIsTurnedAway : Prop :=
  ∀ (s : State) (r : Req) (ws : List Host.Cell),
    s.pstate = .off → s.seq.unit ≠ .init → s.during.headD [] = ws.map (fun w => .wr w.1 w.2) →
    exec (.detach r) s = .next
      { s with
        fb := s.fb.produceAll ws
        during := s.during.tail
        status := .invalidArgument
        trace := s.trace ++ [.cmd r 0b101#3] ++ writeEvents ws ++ [.ret r .invalidArgument] }

/-- ALL_CLEAR: one transport call with the byte 0x08; "the block's own state is not changed by sending it"
(42_display_controller.md R152). That what the call answered stands in `result` for the invoker is the model's choice
(log 8). -/
def Obligations.AllClearSendsOneByte : Prop :=
  ∀ (s : State) (n : Nat),
    s.Quiet →
    (s.txAnswers.get 0 = .ok →
      exec .allClear s = .next
        { s with result := some .ok, txAnswers := s.txAnswers.drop 1, trace := s.trace ++ [.tx [0x08#8] .ok] }) ∧
    (s.txAnswers.get 0 = .fail n →
      exec .allClear s = .next
        { s with
          result := some .transportFailure
          txAnswers := s.txAnswers.drop 1
          trace := s.trace ++ [.tx [0x08#8] (.fail (min n 1))] })

/-! ## The refresh coordinator -/

/-- REFRESH with every answer `ok`: 240 lines in rising order, each read, framed and followed by the delay, then the lock
released and `OK` returned; nothing else changes (43_refresh_coordinator.md R164, R174). -/
def Obligations.RefreshSendsEveryLine : Prop :=
  ∀ (s : State) (r : Req),
    s.Quiet → s.pstate = .active ∨ s.pstate = .blanked → s.seq.unit = .idle → s.lock = .free → s.waitq = [] →
    s.LinesAnswerOk → (∀ n, s.txAnswers.get n = .ok) → (∀ n, s.grants.get n = true) →
    exec (.refresh r) s = .next (s.fullyRefreshed r (refreshOpening r))

/-- Under `BestEffort`, whatever the answers are: all 240 iterations, one wait each, as many chip-select asserts as lines
with a buffer, the status `OK` (43_refresh_coordinator.md R166). -/
def Obligations.BestEffortRefreshReportsSuccess : Prop :=
  ∀ (s : State) (r : Req),
    s.Quiet → s.pstate = .active ∨ s.pstate = .blanked → s.seq.unit = .idle → s.lock = .free → s.waitq = [] →
    s.inFlight = none → s.policy = .bestEffort → s.Returns →
    ∃ (t : State) (es : List Event), exec (.refresh r) s = .next t ∧
      t.trace = s.trace ++ refreshOpening r ++ es ++ refreshClosing r .ok ∧
      t.status = .ok ∧ t.lock = .free ∧ t.seq.unit = .idle ∧ t.pstate = s.pstate ∧ t.fb = s.fb ∧
      t.inFlight = none ∧
      es.countP Event.isGap = 240 ∧ es.countP Event.isAssert = (List.range 240).countP s.grants.get

/-- Under `FailFast` the first line that fails ends the refresh with its status, with no wait after it and no further line
(43_refresh_coordinator.md R167): line `k` has no buffer, or its header call fails, or its payload call fails. -/
def Obligations.FailFastRefreshStopsAtTheFirstFailure : Prop :=
  ∀ (s : State) (r : Req) (k j : Nat),
    s.Quiet → s.pstate = .active ∨ s.pstate = .blanked → s.seq.unit = .idle → s.lock = .free → s.waitq = [] →
    s.policy = .failFast → s.LinesAnswerOk → k < 240 → (∀ n, n < k → s.grants.get n = true) →
    (∀ n, n < 2 * k → s.txAnswers.get n = .ok) →
    (s.grants.get k = false →
      ∃ t : State, exec (.refresh r) s = .next t ∧ t.status = .resourceExhausted ∧ t.lock = .free ∧
        t.seq.unit = .idle ∧
        t.trace = s.trace ++ refreshOpening r ++ linesEvents s.fb k ++ rowEvents s.fb k ++
          refreshClosing r .resourceExhausted) ∧
    (s.grants.get k = true → s.txAnswers.get (2 * k) = .fail j →
      ∃ t : State, exec (.refresh r) s = .next t ∧ t.status = .transportFailure ∧ t.lock = .free ∧
        t.seq.unit = .idle ∧
        t.trace = s.trace ++ refreshOpening r ++ linesEvents s.fb k ++ rowEvents s.fb k ++
          headerFailureEvents k j ++ refreshClosing r .transportFailure) ∧
    (s.grants.get k = true → s.txAnswers.get (2 * k) = .ok → s.txAnswers.get (2 * k + 1) = .fail j →
      ∃ t : State, exec (.refresh r) s = .next t ∧ t.status = .transportFailure ∧ t.lock = .free ∧
        t.seq.unit = .idle ∧
        t.trace = s.trace ++ refreshOpening r ++ linesEvents s.fb k ++ rowEvents s.fb k ++
          payloadFailureEvents s.fb k j ++ refreshClosing r .transportFailure)

/-- A refresh in `Blanked` is the refresh in `Active`, event for event, whatever the answers are
(43_refresh_coordinator.md R163). -/
def Obligations.RefreshDoesNotLookAtBlanking : Prop :=
  ∀ (s t : State) (r : Req),
    s.Quiet → s.waitq = [] →
    exec (.refresh r) { s with pstate := .active } = .next t →
    exec (.refresh r) { s with pstate := .blanked } = .next { t with pstate := .blanked }

/-- A refresh without a panel takes the lock, gives it back and is answered `InvalidArgument`
(43_refresh_coordinator.md R163). -/
def Obligations.RefreshWithoutAPanelIsTurnedAway : Prop :=
  ∀ (s : State) (r : Req),
    s.Quiet → s.pstate = .uninitialized ∨ s.pstate = .off → s.seq.unit = .idle → s.lock = .free → s.waitq = [] →
    exec (.refresh r) s = .next
      { s with
        status := .invalidArgument
        policyS := s.policy
        caller := r
        arb := s.arb.drop 1
        trace := s.trace ++ [.cmd r 0b010#3, .acq r, .rel r, .ret r .invalidArgument] }

/-- While the lock is held, REFRESH and DETACH only join the waiting requests (43_refresh_coordinator.md R161;
42_display_controller.md R150). -/
def Obligations.RequestsWaitBehindTheLock : Prop :=
  ∀ (s : State) (r h : Req),
    s.Quiet → s.lock = .held h → s.seq.unit ≠ .init → s.pstate ≠ .initializing →
    exec (.refresh r) s = .next
      { s with waitq := s.waitq ++ [(r, .refresh)], trace := s.trace ++ [.cmd r 0b010#3] } ∧
    (s.pstate ≠ .off →
      exec (.detach r) s = .next
        { s with waitq := s.waitq ++ [(r, .detach)], trace := s.trace ++ [.cmd r 0b101#3] })

/-- Behind a teardown any waiting request may be granted next, and each is answered `InvalidArgument` at once
(42_display_controller.md R151; 43_refresh_coordinator.md R162). -/
def Obligations.AnyWaiterBehindATeardownIsAnswered : Prop :=
  ∀ (s : State) (n : Nat) (r : Req) (op : WaitOp),
    s.Quiet → s.inFlight = none → s.ordered = none → s.seq.unit = .idle → s.port = [] → s.pstate = .off →
    s.lock = .free → s.waitq[n]? = some (r, op) → s.arb.get 0 = n →
    ∃ t : State, step s = .next t ∧ t.waitq = s.waitq.eraseIdx n ∧ t.lock = .free ∧ t.pstate = .off ∧
      t.status = .invalidArgument ∧ t.trace = s.trace ++ [.acq r, .rel r, .ret r .invalidArgument]

/-- In `Active` or `Blanked` an idle block with the lock free grants the waiting request the arbiter chooses, whichever it
is, takes that one entry from `WAITQ` and runs its operation to the end: a whole refresh, or the teardown
(43_refresh_coordinator.md R162, R164, R171; 42_display_controller.md R150). -/
def Obligations.IdleBlockServesTheChosenWaiter : Prop :=
  ∀ (s : State) (n : Nat) (r : Req) (op : WaitOp),
    s.Quiet → s.inFlight = none → s.ordered = none → s.seq.unit = .idle →
    s.port = [] ∨ (∃ rest, s.port = none :: rest) → s.pstate = .active ∨ s.pstate = .blanked → s.lock = .free →
    s.waitq[n]? = some (r, op) → s.arb.get 0 % s.waitq.length = n →
    s.LinesAnswerOk → (∀ k, s.txAnswers.get k = .ok) → (∀ k, s.grants.get k = true) →
    (op = .refresh →
      step s = .next
        { s.fullyRefreshed r [.acq r] with waitq := s.waitq.eraseIdx n, port := s.port.tail }) ∧
    (op = .detach →
      step s = .next
        { s with
          pstate := .off
          status := .ok
          seq := ⟨.idle, .detachStep .csLow, s.seq.ln, s.seq.pxi⟩
          caller := r
          ctl := { s.ctl with displayEnable := false, chipSelect := false }
          ctlAnswers := s.ctlAnswers.drop 2
          arb := s.arb.drop 1
          waitq := s.waitq.eraseIdx n
          port := s.port.tail
          trace := s.trace ++
            [.acq r, .set .displayEnable false true, .set .chipSelect false true, .rel r, .ret r .ok] })

/-- A return is an event of its own. Other agents' events may come before it (20_memory.md R57; 60_exceptions.md R185): between
the two events of an INIT that is turned away come producers' writes, or the return is put off; a command turned away inside a
line that is sent alone is answered after two more events of the line. But no return of a command that is turned away comes
between `ACQ` and `REL`, and that of a refresh comes before the next grant, whatever is scheduled (43_refresh_coordinator.md R172;
95_test_vectors.md P6 (a), P7). An idle block gives the oldest return it owes. How returns are scheduled and the field that holds
those owed are the model's choice (log 4, log 29); that turned-away commands wait for the release is deduced (log 30). -/
def Obligations.AnswersMayComeLater : Prop :=
  (∀ (s : State) (r : Req) (ws : List Host.Cell),
    s.pstate = .active ∨ s.pstate = .blanked ∨ s.pstate = .off → s.seq.unit ≠ .init →
    (s.during.headD [] = ws.map (fun w => .wr w.1 w.2) →
      exec (.init r) s = .next
        { s with
          fb := s.fb.produceAll ws
          during := s.during.tail
          status := .invalidArgument
          trace := s.trace ++ [.cmd r 0b001#3] ++ writeEvents ws ++ [.ret r .invalidArgument] }) ∧
    (s.during.headD [] = [.putOff] →
      exec (.init r) s = .next
        { s with
          during := s.during.tail
          owed := s.owed ++ [(r, .invalidArgument)]
          trace := s.trace ++ [.cmd r 0b001#3] })) ∧
  (∀ (s : State) (line : BitVec 16) (r : Req) (op : BitVec 3) (a : Nat) (b : Byte),
    s.during = [[.cmd r op], [.wr a b], [.answer s.owed.length]] → line.toNat < 240 → a < 384000 →
    s.lock = .free → s.seq.unit ≠ .init → s.pstate ≠ .initializing →
    (op = 0#3 ∨ op = 6#3 ∨ op = 7#3) ∨ (op = 0b001#3 ∧ s.pstate ≠ .uninitialized) ∨ (op = 0b101#3 ∧ s.pstate = .off) →
    s.grants.get 0 = true → (∀ n, n < 2 → s.txAnswers.get n = .ok) → (∀ n, n < 2 → s.ctlAnswers.get n = .ok) →
    exec (.sendLine line) s = .next
      { s with
        fb := s.fb.write a b
        hdr := headerBytes line
        ctl := { s.ctl with chipSelect := false }
        seq := ⟨s.seq.unit, .csDeassert, s.seq.ln, s.seq.pxi⟩
        status := .invalidArgument
        result := some .ok
        grants := s.grants.drop 1
        ctlAnswers := s.ctlAnswers.drop 2
        txAnswers := s.txAnswers.drop 2
        during := []
        trace := s.trace ++
          [.cmd r op, .set .chipSelect true true, .wr a b, .tx (headerBytes line) .ok, .ret r .invalidArgument,
            .tx s.lb .ok, .set .chipSelect false true] }) ∧
  (∀ (s : State) (r q : Req) (op : BitVec 3),
    s.seq.unit = .idle → s.lock = .free → s.waitq = [] →
    ((op = 0#3 ∨ op = 6#3 ∨ op = 7#3) ∧ (s.pstate = .uninitialized ∨ s.pstate = .off)) ∨
      ((op = 0b001#3 ∨ op = 0b101#3) ∧ s.pstate = .off) →
    s.during = [[], [.cmd q op, .answer s.owed.length], [.answer s.owed.length]] →
    exec (.refresh r) s = .next
      { s with
        status := .invalidArgument
        policyS := s.policy
        caller := r
        arb := s.arb.drop 1
        during := []
        trace := s.trace ++
          [.cmd r 0b010#3, .acq r, .cmd q op, .rel r, .ret q .invalidArgument, .ret r .invalidArgument] }) ∧
  (∀ (s : State) (r q : Req),
    s.inFlight = none → s.ordered = none → s.port = [] → s.pstate = .uninitialized ∨ s.pstate = .off →
    s.seq.unit = .idle → s.lock = .free → s.waitq = [] → s.during = [[], [], [.cmd q 0b010#3, .putOff]] →
    ∃ t u : State, exec (.refresh r) s = .next t ∧ t.owed = s.owed ∧ t.waitq = [(q, .refresh)] ∧
      t.trace = s.trace ++ [.cmd r 0b010#3, .acq r, .rel r, .cmd q 0b010#3, .ret r .invalidArgument] ∧
      step t = .next u ∧ u.owed = s.owed ∧ u.waitq = [] ∧
      u.trace = t.trace ++ [.acq q, .rel q, .ret q .invalidArgument]) ∧
  (∀ (s : State) (r : Req) (st : Status) (rest : List (Req × Status)),
    s.inFlight = none → s.ordered = none → s.port = [] ∨ (∃ p, s.port = none :: p) → s.seq.unit = .idle →
    s.lock = .free → s.waitq = [] → s.owed = (r, st) :: rest →
    step s = .next
      { s with owed := rest, status := st, port := s.port.tail, trace := s.trace ++ [.ret r st] })

/-- Two refreshes of an unchanged buffer put the same events on the bus (43_refresh_coordinator.md R173). -/
def Obligations.RefreshOfAnUnchangedBufferRepeatsItself : Prop :=
  ∀ (s : State) (r q : Req),
    s.Quiet → s.pstate = .active ∨ s.pstate = .blanked → s.seq.unit = .idle → s.lock = .free → s.waitq = [] →
    s.LinesAnswerOk → (∀ n, s.txAnswers.get n = .ok) → (∀ n, s.grants.get n = true) →
    ∃ (t u : State) (d e : List Event), exec (.refresh r) s = .next t ∧ exec (.refresh q) t = .next u ∧
      t.trace = s.trace ++ d ∧ u.trace = t.trace ++ e ∧ d.filter Event.isBus = e.filter Event.isBus

/-- The policy is sampled at the grant: whatever changes of the `POLICY` input arrive anywhere inside the refresh, it goes as
without them, event for event, under either policy and whatever the answers are; only the input's level differs after it
(10_state.md R31; 20_memory.md R66). -/
def Obligations.PolicyIsSampledOncePerRefresh : Prop :=
  ∀ (s t : State) (r : Req) (later : List (List Input)),
    s.during = [] :: later → (later.all fun slot => slot.all Input.isPolicy) = true →
    s.seq.unit = .idle → s.lock = .free → s.waitq = [] →
    exec (.refresh r) { s with during := [] } = .next t →
    t.policyS = s.policy ∧
      ∃ u : State, exec (.refresh r) s = .next u ∧ { u with policy := t.policy, during := [] } = t

/-! ## The whole machine -/

/-- The values of 10_state.md R36 that the spec gives. -/
def Obligations.ResetStateIsAsSpecified : Prop :=
  State.reset.pstate = .uninitialized ∧ State.reset.ctl = ⟨false, false, false, false⟩ ∧
  State.reset.lock = .free ∧ State.reset.waitq = [] ∧ State.reset.seq = ⟨.idle, .start, 0, 0⟩ ∧
  State.reset.trace = []

/-- The invariant holds right after reset. -/
def Obligations.ResetStateMeetsTheInvariant : Prop := State.reset.Inv

/-- Every step keeps the invariant (10_state.md R21, R25, R27, R28, R29; 70_reset_and_hazards.md R222). -/
def Obligations.StepKeepsTheInvariant : Prop :=
  ∀ s t : State, s.Inv → step s = .next t → t.Inv

/-- Every event of every step is one the block may emit: no other command byte, no misaligned read, no `SET` of
`com_inversion_input` (30_encoding.md R92; 20_memory.md R55; 70_reset_and_hazards.md R222). -/
def Obligations.StepEmitsOnlyLawfulEvents : Prop :=
  ∀ s t : State, s.Inv → step s = .next t →
    ∃ es : List Event, t.trace = s.trace ++ es ∧ ∀ e ∈ es, e.Lawful

/-- `Off` is terminal: only a reset leaves it (42_display_controller.md R151). -/
def Obligations.OffIsTerminal : Prop :=
  ∀ s t : State, s.Inv → s.pstate = .off → s.noResetDuring = true → s.noResetAtPort = true →
    step s = .next t → t.pstate = .off

/-- The encoder, the framer, the clear command and the refresh coordinator never write `PSTATE` (10_state.md R24). -/
def Obligations.OnlyTheControllerChangesThePowerState : Prop :=
  ∀ (i : Instr) (s t : State),
    s.Quiet → s.waitq = [] →
    (∃ r, i = .refresh r) ∨ (∃ line, i = .sendLine line) ∨ (∃ y, i = .encodeRow y) ∨ i = .trailer ∨ i = .allClear →
    exec i s = .next t → t.pstate = s.pstate

/-- A reset input puts the block's state at the values of 10_state.md R36 and emits no event, at an idle block and at one
that is stuck in a call (70_reset_and_hazards.md R211). -/
def Obligations.ResetInputEmitsNoEvent : Prop :=
  ∀ (s : State) (u : Scratch) (rest : List (Option Input)),
    s.inFlight ≠ none ∨ (s.seq.unit = .idle ∧ s.ordered = none) → s.port = some (.reset u) :: rest →
    ∃ t : State, step s = .next t ∧ t.trace = s.trace ∧ t.port = rest ∧
      t.pstate = .uninitialized ∧ t.ctl = ⟨false, false, false, false⟩ ∧ t.lock = .free ∧ t.waitq = [] ∧
      t.seq = ⟨.idle, .start, 0, 0⟩ ∧ t.inFlight = none ∧ t.px = [] ∧ t.result = none ∧ t.owed = [] ∧ t.ordered = none ∧
      t.lb.length = 152 ∧ t.hdr.length = 7 ∧ t.fb.wf = true

/-- A reset anywhere between the assert and the deassert of a line cuts the frame short with no deassert event: before the
header call, before what follows it, or before the deassert after the payload call (70_reset_and_hazards.md R210). -/
def Obligations.ResetAbandonsALine : Prop :=
  ∀ (s : State) (line : BitVec 16) (u : Scratch) (k : Nat),
    s.during = List.replicate k [] ++ [[.reset u]] → 1 ≤ k → k ≤ 3 → line.toNat < 240 → s.grants.get 0 = true →
    s.ctlAnswers.get 0 ≠ .never → (2 ≤ k → s.txAnswers.get 0 ≠ .never) →
    (k = 3 → s.txAnswers.get 0 = .ok ∧ s.txAnswers.get 1 ≠ .never) →
    ∃ t : State, exec (.sendLine line) s = .next t ∧
      t.trace = s.trace ++ [setEvent .chipSelect true (s.ctlAnswers.get 0)] ++
        (if 2 ≤ k then txEvents (headerBytes line) (s.txAnswers.get 0) else []) ++
        (if k = 3 then txEvents s.lb (s.txAnswers.get 1) else []) ∧
      t.ctl = ⟨false, false, false, false⟩ ∧ t.pstate = .uninitialized ∧ t.seq = ⟨.idle, .start, 0, 0⟩ ∧
      t.lock = .free ∧ t.waitq = [] ∧ t.inFlight = none

/-- A block that is stuck in a call stays there: it keeps the lock and emits no event; only commands being issued and
producers' writes are seen (60_exceptions.md R198). What a stuck block does with a command that arrives is deduced
(log 9). -/
def Obligations.StuckBlockTakesNoStep : Prop :=
  ∀ (s t : State) (c : Call),
    s.inFlight = some c → s.noResetAtPort = true → step s = .next t →
    t.inFlight = some c ∧ t.lock = s.lock ∧ t.pstate = s.pstate ∧ t.ctl = s.ctl ∧ t.seq = s.seq ∧ t.lb = s.lb ∧
      t.hdr = s.hdr ∧ t.status = s.status ∧ t.px = s.px ∧ t.result = s.result ∧ t.owed = s.owed ∧
      (t.trace = s.trace ∨ (∃ r op, t.trace = s.trace ++ [.cmd r op]) ∨ ∃ a b, t.trace = s.trace ++ [.wr a b])
end

