-- ==== Sys2Proof/Laws/Act.lean ====
section
/-! SUPPORT. How actions compose: one lemma per way an action ends, and properties kept through sequential composition. -/

namespace Sys2Proof.Machine

variable {α β : Type}

@[simp] theorem Act.pure_apply (a : α) (s : State) : (pure a : Act α) s = .ok a s := rfl

@[simp] theorem Act.read_apply (f : State → α) (s : State) : Act.read f s = .ok (f s) s := rfl

@[simp] theorem Act.update_apply (f : State → State) (s : State) : Act.update f s = .ok () (f s) := rfl

@[simp] theorem Act.stop_apply (e : Stop) (s : State) : (Act.stop e : Act α) s = .error e s := rfl

/-- A composition whose first part ends well goes on from there. -/
theorem Act.bind_ok {x : Act α} {f : α → Act β} {s t : State} {a : α} (h : x s = .ok a t) :
    (x >>= f) s = f a t := by
  simp only [bind, EStateM.bind, h]

/-- A composition whose first part stops, stops there. -/
theorem Act.bind_error {x : Act α} {f : α → Act β} {s t : State} {e : Stop} (h : x s = .error e t) :
    (x >>= f) s = .error e t := by
  simp only [bind, EStateM.bind, h]

@[simp] theorem Act.pure_bind_apply (a : α) (f : α → Act β) (s : State) : ((pure a : Act α) >>= f) s = f a s := rfl

@[simp] theorem Act.read_bind_apply (g : State → α) (f : α → Act β) (s : State) :
    (Act.read g >>= f) s = f (g s) s := rfl

@[simp] theorem Act.update_bind_apply (g : State → State) (f : Unit → Act β) (s : State) :
    (Act.update g >>= f) s = f () (g s) := rfl

@[simp] theorem Act.stop_bind_apply (e : Stop) (f : α → Act β) (s : State) :
    ((Act.stop e : Act α) >>= f) s = .error e s := rfl

/-- The state in which an action ends, however it ends. -/
def Act.final (x : Act α) (s : State) : State :=
  match x s with
  | .ok _ t => t
  | .error _ t => t

/-- An action keeps a property of the state, however it ends. -/
def Act.Keeps (P : State → Prop) (x : Act α) : Prop := ∀ s, P s → P (x.final s)

theorem Act.Keeps.pure {P : State → Prop} (a : α) : Act.Keeps P (pure a : Act α) := fun _ h => h

theorem Act.Keeps.read {P : State → Prop} (f : State → α) : Act.Keeps P (Act.read f) := fun _ h => h

theorem Act.Keeps.stop {P : State → Prop} (e : Stop) : Act.Keeps P (Act.stop e : Act α) := fun _ h => h

theorem Act.Keeps.update {P : State → Prop} {f : State → State} (h : ∀ s, P s → P (f s)) :
    Act.Keeps P (Act.update f) := h

theorem Act.Keeps.bind {P : State → Prop} {x : Act α} {f : α → Act β} (hx : Act.Keeps P x)
    (hf : ∀ a, Act.Keeps P (f a)) : Act.Keeps P (x >>= f) := by
  intro s hs
  have h := hx s hs
  unfold Act.final at h ⊢
  cases hxs : x s with
  | ok a t =>
    rw [hxs] at h
    rw [Act.bind_ok hxs]
    exact hf a t h
  | error e t =>
    rw [hxs] at h
    rw [Act.bind_error hxs]
    exact h

/-- If the outcome is a next state, it is the state in which the action ended. -/
theorem Act.outcome_next {x : Act Unit} {s t : State} (h : x.outcome s = .next t) : t = x.final s := by
  unfold Act.outcome at h
  unfold Act.final
  cases hx : x s with
  | ok a u => rw [hx] at h; cases h; rfl
  | error e u => rw [hx] at h; cases e <;> cases h <;> rfl

/-- An action that ends well gives a next state. -/
theorem Act.outcome_ok {x : Act Unit} {s t : State} (h : x s = .ok () t) : x.outcome s = .next t := by
  unfold Act.outcome; rw [h]

/-- A property that an action keeps holds of the next state its outcome gives. -/
theorem Act.Keeps.next {P : State → Prop} {x : Act Unit} (hx : Act.Keeps P x) {s t : State} (hs : P s)
    (h : x.outcome s = .next t) : P t := Act.outcome_next h ▸ hx s hs

end Sys2Proof.Machine
end

