-- ==== Sys2Proof/Laws/State.lean ====
section
/-! SUPPORT. One lemma per field per named update of the state, true by rfl, so that no later proof unfolds an update. -/

namespace Sys2Proof.Machine.State

variable (s : State)

/-! ## `emit` -/

@[simp] theorem emit_fb (e : Event) : (s.emit e).fb = s.fb := rfl
@[simp] theorem emit_ctl (e : Event) : (s.emit e).ctl = s.ctl := rfl
@[simp] theorem emit_pstate (e : Event) : (s.emit e).pstate = s.pstate := rfl
@[simp] theorem emit_lock (e : Event) : (s.emit e).lock = s.lock := rfl
@[simp] theorem emit_waitq (e : Event) : (s.emit e).waitq = s.waitq := rfl
@[simp] theorem emit_lb (e : Event) : (s.emit e).lb = s.lb := rfl
@[simp] theorem emit_hdr (e : Event) : (s.emit e).hdr = s.hdr := rfl
@[simp] theorem emit_seq (e : Event) : (s.emit e).seq = s.seq := rfl
@[simp] theorem emit_status (e : Event) : (s.emit e).status = s.status := rfl
@[simp] theorem emit_policyS (e : Event) : (s.emit e).policyS = s.policyS := rfl
@[simp] theorem emit_inFlight (e : Event) : (s.emit e).inFlight = s.inFlight := rfl
@[simp] theorem emit_px (e : Event) : (s.emit e).px = s.px := rfl
@[simp] theorem emit_result (e : Event) : (s.emit e).result = s.result := rfl
@[simp] theorem emit_caller (e : Event) : (s.emit e).caller = s.caller := rfl
@[simp] theorem emit_owed (e : Event) : (s.emit e).owed = s.owed := rfl
@[simp] theorem emit_policy (e : Event) : (s.emit e).policy = s.policy := rfl
@[simp] theorem emit_ctlAnswers (e : Event) : (s.emit e).ctlAnswers = s.ctlAnswers := rfl
@[simp] theorem emit_txAnswers (e : Event) : (s.emit e).txAnswers = s.txAnswers := rfl
@[simp] theorem emit_rdAnswers (e : Event) : (s.emit e).rdAnswers = s.rdAnswers := rfl
@[simp] theorem emit_waitAnswers (e : Event) : (s.emit e).waitAnswers = s.waitAnswers := rfl
@[simp] theorem emit_grants (e : Event) : (s.emit e).grants = s.grants := rfl
@[simp] theorem emit_arb (e : Event) : (s.emit e).arb = s.arb := rfl
@[simp] theorem emit_port (e : Event) : (s.emit e).port = s.port := rfl
@[simp] theorem emit_during (e : Event) : (s.emit e).during = s.during := rfl
@[simp] theorem emit_ordered (e : Event) : (s.emit e).ordered = s.ordered := rfl
@[simp] theorem emit_trace (e : Event) : (s.emit e).trace = s.trace ++ [e] := rfl

/-! ## `setLine` -/

@[simp] theorem setLine_fb (l : Line) (v : Bool) : (s.setLine l v).fb = s.fb := rfl
@[simp] theorem setLine_ctl (l : Line) (v : Bool) : (s.setLine l v).ctl = s.ctl.set l v := rfl
@[simp] theorem setLine_pstate (l : Line) (v : Bool) : (s.setLine l v).pstate = s.pstate := rfl
@[simp] theorem setLine_lock (l : Line) (v : Bool) : (s.setLine l v).lock = s.lock := rfl
@[simp] theorem setLine_waitq (l : Line) (v : Bool) : (s.setLine l v).waitq = s.waitq := rfl
@[simp] theorem setLine_lb (l : Line) (v : Bool) : (s.setLine l v).lb = s.lb := rfl
@[simp] theorem setLine_hdr (l : Line) (v : Bool) : (s.setLine l v).hdr = s.hdr := rfl
@[simp] theorem setLine_seq (l : Line) (v : Bool) : (s.setLine l v).seq = s.seq := rfl
@[simp] theorem setLine_status (l : Line) (v : Bool) : (s.setLine l v).status = s.status := rfl
@[simp] theorem setLine_policyS (l : Line) (v : Bool) : (s.setLine l v).policyS = s.policyS := rfl
@[simp] theorem setLine_inFlight (l : Line) (v : Bool) : (s.setLine l v).inFlight = s.inFlight := rfl
@[simp] theorem setLine_px (l : Line) (v : Bool) : (s.setLine l v).px = s.px := rfl
@[simp] theorem setLine_result (l : Line) (v : Bool) : (s.setLine l v).result = s.result := rfl
@[simp] theorem setLine_caller (l : Line) (v : Bool) : (s.setLine l v).caller = s.caller := rfl
@[simp] theorem setLine_owed (l : Line) (v : Bool) : (s.setLine l v).owed = s.owed := rfl
@[simp] theorem setLine_policy (l : Line) (v : Bool) : (s.setLine l v).policy = s.policy := rfl
@[simp] theorem setLine_ctlAnswers (l : Line) (v : Bool) : (s.setLine l v).ctlAnswers = s.ctlAnswers := rfl
@[simp] theorem setLine_txAnswers (l : Line) (v : Bool) : (s.setLine l v).txAnswers = s.txAnswers := rfl
@[simp] theorem setLine_rdAnswers (l : Line) (v : Bool) : (s.setLine l v).rdAnswers = s.rdAnswers := rfl
@[simp] theorem setLine_waitAnswers (l : Line) (v : Bool) : (s.setLine l v).waitAnswers = s.waitAnswers := rfl
@[simp] theorem setLine_grants (l : Line) (v : Bool) : (s.setLine l v).grants = s.grants := rfl
@[simp] theorem setLine_arb (l : Line) (v : Bool) : (s.setLine l v).arb = s.arb := rfl
@[simp] theorem setLine_port (l : Line) (v : Bool) : (s.setLine l v).port = s.port := rfl
@[simp] theorem setLine_during (l : Line) (v : Bool) : (s.setLine l v).during = s.during := rfl
@[simp] theorem setLine_ordered (l : Line) (v : Bool) : (s.setLine l v).ordered = s.ordered := rfl
@[simp] theorem setLine_trace (l : Line) (v : Bool) : (s.setLine l v).trace = s.trace := rfl

/-! ## `setUnit` -/

@[simp] theorem setUnit_fb (u : SeqUnit) : (s.setUnit u).fb = s.fb := rfl
@[simp] theorem setUnit_ctl (u : SeqUnit) : (s.setUnit u).ctl = s.ctl := rfl
@[simp] theorem setUnit_pstate (u : SeqUnit) : (s.setUnit u).pstate = s.pstate := rfl
@[simp] theorem setUnit_lock (u : SeqUnit) : (s.setUnit u).lock = s.lock := rfl
@[simp] theorem setUnit_waitq (u : SeqUnit) : (s.setUnit u).waitq = s.waitq := rfl
@[simp] theorem setUnit_lb (u : SeqUnit) : (s.setUnit u).lb = s.lb := rfl
@[simp] theorem setUnit_hdr (u : SeqUnit) : (s.setUnit u).hdr = s.hdr := rfl
@[simp] theorem setUnit_seq (u : SeqUnit) : (s.setUnit u).seq = ⟨u, s.seq.step, s.seq.ln, s.seq.pxi⟩ := rfl
@[simp] theorem setUnit_status (u : SeqUnit) : (s.setUnit u).status = s.status := rfl
@[simp] theorem setUnit_policyS (u : SeqUnit) : (s.setUnit u).policyS = s.policyS := rfl
@[simp] theorem setUnit_inFlight (u : SeqUnit) : (s.setUnit u).inFlight = s.inFlight := rfl
@[simp] theorem setUnit_px (u : SeqUnit) : (s.setUnit u).px = s.px := rfl
@[simp] theorem setUnit_result (u : SeqUnit) : (s.setUnit u).result = s.result := rfl
@[simp] theorem setUnit_caller (u : SeqUnit) : (s.setUnit u).caller = s.caller := rfl
@[simp] theorem setUnit_owed (u : SeqUnit) : (s.setUnit u).owed = s.owed := rfl
@[simp] theorem setUnit_policy (u : SeqUnit) : (s.setUnit u).policy = s.policy := rfl
@[simp] theorem setUnit_ctlAnswers (u : SeqUnit) : (s.setUnit u).ctlAnswers = s.ctlAnswers := rfl
@[simp] theorem setUnit_txAnswers (u : SeqUnit) : (s.setUnit u).txAnswers = s.txAnswers := rfl
@[simp] theorem setUnit_rdAnswers (u : SeqUnit) : (s.setUnit u).rdAnswers = s.rdAnswers := rfl
@[simp] theorem setUnit_waitAnswers (u : SeqUnit) : (s.setUnit u).waitAnswers = s.waitAnswers := rfl
@[simp] theorem setUnit_grants (u : SeqUnit) : (s.setUnit u).grants = s.grants := rfl
@[simp] theorem setUnit_arb (u : SeqUnit) : (s.setUnit u).arb = s.arb := rfl
@[simp] theorem setUnit_port (u : SeqUnit) : (s.setUnit u).port = s.port := rfl
@[simp] theorem setUnit_during (u : SeqUnit) : (s.setUnit u).during = s.during := rfl
@[simp] theorem setUnit_ordered (u : SeqUnit) : (s.setUnit u).ordered = s.ordered := rfl
@[simp] theorem setUnit_trace (u : SeqUnit) : (s.setUnit u).trace = s.trace := rfl

/-! ## `setStep` -/

@[simp] theorem setStep_fb (p : SeqStep) : (s.setStep p).fb = s.fb := rfl
@[simp] theorem setStep_ctl (p : SeqStep) : (s.setStep p).ctl = s.ctl := rfl
@[simp] theorem setStep_pstate (p : SeqStep) : (s.setStep p).pstate = s.pstate := rfl
@[simp] theorem setStep_lock (p : SeqStep) : (s.setStep p).lock = s.lock := rfl
@[simp] theorem setStep_waitq (p : SeqStep) : (s.setStep p).waitq = s.waitq := rfl
@[simp] theorem setStep_lb (p : SeqStep) : (s.setStep p).lb = s.lb := rfl
@[simp] theorem setStep_hdr (p : SeqStep) : (s.setStep p).hdr = s.hdr := rfl
@[simp] theorem setStep_seq (p : SeqStep) : (s.setStep p).seq = ⟨s.seq.unit, p, s.seq.ln, s.seq.pxi⟩ := rfl
@[simp] theorem setStep_status (p : SeqStep) : (s.setStep p).status = s.status := rfl
@[simp] theorem setStep_policyS (p : SeqStep) : (s.setStep p).policyS = s.policyS := rfl
@[simp] theorem setStep_inFlight (p : SeqStep) : (s.setStep p).inFlight = s.inFlight := rfl
@[simp] theorem setStep_px (p : SeqStep) : (s.setStep p).px = s.px := rfl
@[simp] theorem setStep_result (p : SeqStep) : (s.setStep p).result = s.result := rfl
@[simp] theorem setStep_caller (p : SeqStep) : (s.setStep p).caller = s.caller := rfl
@[simp] theorem setStep_owed (p : SeqStep) : (s.setStep p).owed = s.owed := rfl
@[simp] theorem setStep_policy (p : SeqStep) : (s.setStep p).policy = s.policy := rfl
@[simp] theorem setStep_ctlAnswers (p : SeqStep) : (s.setStep p).ctlAnswers = s.ctlAnswers := rfl
@[simp] theorem setStep_txAnswers (p : SeqStep) : (s.setStep p).txAnswers = s.txAnswers := rfl
@[simp] theorem setStep_rdAnswers (p : SeqStep) : (s.setStep p).rdAnswers = s.rdAnswers := rfl
@[simp] theorem setStep_waitAnswers (p : SeqStep) : (s.setStep p).waitAnswers = s.waitAnswers := rfl
@[simp] theorem setStep_grants (p : SeqStep) : (s.setStep p).grants = s.grants := rfl
@[simp] theorem setStep_arb (p : SeqStep) : (s.setStep p).arb = s.arb := rfl
@[simp] theorem setStep_port (p : SeqStep) : (s.setStep p).port = s.port := rfl
@[simp] theorem setStep_during (p : SeqStep) : (s.setStep p).during = s.during := rfl
@[simp] theorem setStep_ordered (p : SeqStep) : (s.setStep p).ordered = s.ordered := rfl
@[simp] theorem setStep_trace (p : SeqStep) : (s.setStep p).trace = s.trace := rfl

/-! ## `setLn` -/

@[simp] theorem setLn_fb (n : Fin 240) : (s.setLn n).fb = s.fb := rfl
@[simp] theorem setLn_ctl (n : Fin 240) : (s.setLn n).ctl = s.ctl := rfl
@[simp] theorem setLn_pstate (n : Fin 240) : (s.setLn n).pstate = s.pstate := rfl
@[simp] theorem setLn_lock (n : Fin 240) : (s.setLn n).lock = s.lock := rfl
@[simp] theorem setLn_waitq (n : Fin 240) : (s.setLn n).waitq = s.waitq := rfl
@[simp] theorem setLn_lb (n : Fin 240) : (s.setLn n).lb = s.lb := rfl
@[simp] theorem setLn_hdr (n : Fin 240) : (s.setLn n).hdr = s.hdr := rfl
@[simp] theorem setLn_seq (n : Fin 240) : (s.setLn n).seq = ⟨s.seq.unit, s.seq.step, n, s.seq.pxi⟩ := rfl
@[simp] theorem setLn_status (n : Fin 240) : (s.setLn n).status = s.status := rfl
@[simp] theorem setLn_policyS (n : Fin 240) : (s.setLn n).policyS = s.policyS := rfl
@[simp] theorem setLn_inFlight (n : Fin 240) : (s.setLn n).inFlight = s.inFlight := rfl
@[simp] theorem setLn_px (n : Fin 240) : (s.setLn n).px = s.px := rfl
@[simp] theorem setLn_result (n : Fin 240) : (s.setLn n).result = s.result := rfl
@[simp] theorem setLn_caller (n : Fin 240) : (s.setLn n).caller = s.caller := rfl
@[simp] theorem setLn_owed (n : Fin 240) : (s.setLn n).owed = s.owed := rfl
@[simp] theorem setLn_policy (n : Fin 240) : (s.setLn n).policy = s.policy := rfl
@[simp] theorem setLn_ctlAnswers (n : Fin 240) : (s.setLn n).ctlAnswers = s.ctlAnswers := rfl
@[simp] theorem setLn_txAnswers (n : Fin 240) : (s.setLn n).txAnswers = s.txAnswers := rfl
@[simp] theorem setLn_rdAnswers (n : Fin 240) : (s.setLn n).rdAnswers = s.rdAnswers := rfl
@[simp] theorem setLn_waitAnswers (n : Fin 240) : (s.setLn n).waitAnswers = s.waitAnswers := rfl
@[simp] theorem setLn_grants (n : Fin 240) : (s.setLn n).grants = s.grants := rfl
@[simp] theorem setLn_arb (n : Fin 240) : (s.setLn n).arb = s.arb := rfl
@[simp] theorem setLn_port (n : Fin 240) : (s.setLn n).port = s.port := rfl
@[simp] theorem setLn_during (n : Fin 240) : (s.setLn n).during = s.during := rfl
@[simp] theorem setLn_ordered (n : Fin 240) : (s.setLn n).ordered = s.ordered := rfl
@[simp] theorem setLn_trace (n : Fin 240) : (s.setLn n).trace = s.trace := rfl

/-! ## `setPxi` -/

@[simp] theorem setPxi_fb (x : Fin 400) : (s.setPxi x).fb = s.fb := rfl
@[simp] theorem setPxi_ctl (x : Fin 400) : (s.setPxi x).ctl = s.ctl := rfl
@[simp] theorem setPxi_pstate (x : Fin 400) : (s.setPxi x).pstate = s.pstate := rfl
@[simp] theorem setPxi_lock (x : Fin 400) : (s.setPxi x).lock = s.lock := rfl
@[simp] theorem setPxi_waitq (x : Fin 400) : (s.setPxi x).waitq = s.waitq := rfl
@[simp] theorem setPxi_lb (x : Fin 400) : (s.setPxi x).lb = s.lb := rfl
@[simp] theorem setPxi_hdr (x : Fin 400) : (s.setPxi x).hdr = s.hdr := rfl
@[simp] theorem setPxi_seq (x : Fin 400) : (s.setPxi x).seq = ⟨s.seq.unit, s.seq.step, s.seq.ln, x⟩ := rfl
@[simp] theorem setPxi_status (x : Fin 400) : (s.setPxi x).status = s.status := rfl
@[simp] theorem setPxi_policyS (x : Fin 400) : (s.setPxi x).policyS = s.policyS := rfl
@[simp] theorem setPxi_inFlight (x : Fin 400) : (s.setPxi x).inFlight = s.inFlight := rfl
@[simp] theorem setPxi_px (x : Fin 400) : (s.setPxi x).px = s.px := rfl
@[simp] theorem setPxi_result (x : Fin 400) : (s.setPxi x).result = s.result := rfl
@[simp] theorem setPxi_caller (x : Fin 400) : (s.setPxi x).caller = s.caller := rfl
@[simp] theorem setPxi_owed (x : Fin 400) : (s.setPxi x).owed = s.owed := rfl
@[simp] theorem setPxi_policy (x : Fin 400) : (s.setPxi x).policy = s.policy := rfl
@[simp] theorem setPxi_ctlAnswers (x : Fin 400) : (s.setPxi x).ctlAnswers = s.ctlAnswers := rfl
@[simp] theorem setPxi_txAnswers (x : Fin 400) : (s.setPxi x).txAnswers = s.txAnswers := rfl
@[simp] theorem setPxi_rdAnswers (x : Fin 400) : (s.setPxi x).rdAnswers = s.rdAnswers := rfl
@[simp] theorem setPxi_waitAnswers (x : Fin 400) : (s.setPxi x).waitAnswers = s.waitAnswers := rfl
@[simp] theorem setPxi_grants (x : Fin 400) : (s.setPxi x).grants = s.grants := rfl
@[simp] theorem setPxi_arb (x : Fin 400) : (s.setPxi x).arb = s.arb := rfl
@[simp] theorem setPxi_port (x : Fin 400) : (s.setPxi x).port = s.port := rfl
@[simp] theorem setPxi_during (x : Fin 400) : (s.setPxi x).during = s.during := rfl
@[simp] theorem setPxi_ordered (x : Fin 400) : (s.setPxi x).ordered = s.ordered := rfl
@[simp] theorem setPxi_trace (x : Fin 400) : (s.setPxi x).trace = s.trace := rfl

/-! ## `setPState` -/

@[simp] theorem setPState_fb (p : PState) : (s.setPState p).fb = s.fb := rfl
@[simp] theorem setPState_ctl (p : PState) : (s.setPState p).ctl = s.ctl := rfl
@[simp] theorem setPState_pstate (p : PState) : (s.setPState p).pstate = p := rfl
@[simp] theorem setPState_lock (p : PState) : (s.setPState p).lock = s.lock := rfl
@[simp] theorem setPState_waitq (p : PState) : (s.setPState p).waitq = s.waitq := rfl
@[simp] theorem setPState_lb (p : PState) : (s.setPState p).lb = s.lb := rfl
@[simp] theorem setPState_hdr (p : PState) : (s.setPState p).hdr = s.hdr := rfl
@[simp] theorem setPState_seq (p : PState) : (s.setPState p).seq = s.seq := rfl
@[simp] theorem setPState_status (p : PState) : (s.setPState p).status = s.status := rfl
@[simp] theorem setPState_policyS (p : PState) : (s.setPState p).policyS = s.policyS := rfl
@[simp] theorem setPState_inFlight (p : PState) : (s.setPState p).inFlight = s.inFlight := rfl
@[simp] theorem setPState_px (p : PState) : (s.setPState p).px = s.px := rfl
@[simp] theorem setPState_result (p : PState) : (s.setPState p).result = s.result := rfl
@[simp] theorem setPState_caller (p : PState) : (s.setPState p).caller = s.caller := rfl
@[simp] theorem setPState_owed (p : PState) : (s.setPState p).owed = s.owed := rfl
@[simp] theorem setPState_policy (p : PState) : (s.setPState p).policy = s.policy := rfl
@[simp] theorem setPState_ctlAnswers (p : PState) : (s.setPState p).ctlAnswers = s.ctlAnswers := rfl
@[simp] theorem setPState_txAnswers (p : PState) : (s.setPState p).txAnswers = s.txAnswers := rfl
@[simp] theorem setPState_rdAnswers (p : PState) : (s.setPState p).rdAnswers = s.rdAnswers := rfl
@[simp] theorem setPState_waitAnswers (p : PState) : (s.setPState p).waitAnswers = s.waitAnswers := rfl
@[simp] theorem setPState_grants (p : PState) : (s.setPState p).grants = s.grants := rfl
@[simp] theorem setPState_arb (p : PState) : (s.setPState p).arb = s.arb := rfl
@[simp] theorem setPState_port (p : PState) : (s.setPState p).port = s.port := rfl
@[simp] theorem setPState_during (p : PState) : (s.setPState p).during = s.during := rfl
@[simp] theorem setPState_ordered (p : PState) : (s.setPState p).ordered = s.ordered := rfl
@[simp] theorem setPState_trace (p : PState) : (s.setPState p).trace = s.trace := rfl

/-! ## `setStatus` -/

@[simp] theorem setStatus_fb (st : Status) : (s.setStatus st).fb = s.fb := rfl
@[simp] theorem setStatus_ctl (st : Status) : (s.setStatus st).ctl = s.ctl := rfl
@[simp] theorem setStatus_pstate (st : Status) : (s.setStatus st).pstate = s.pstate := rfl
@[simp] theorem setStatus_lock (st : Status) : (s.setStatus st).lock = s.lock := rfl
@[simp] theorem setStatus_waitq (st : Status) : (s.setStatus st).waitq = s.waitq := rfl
@[simp] theorem setStatus_lb (st : Status) : (s.setStatus st).lb = s.lb := rfl
@[simp] theorem setStatus_hdr (st : Status) : (s.setStatus st).hdr = s.hdr := rfl
@[simp] theorem setStatus_seq (st : Status) : (s.setStatus st).seq = s.seq := rfl
@[simp] theorem setStatus_status (st : Status) : (s.setStatus st).status = st := rfl
@[simp] theorem setStatus_policyS (st : Status) : (s.setStatus st).policyS = s.policyS := rfl
@[simp] theorem setStatus_inFlight (st : Status) : (s.setStatus st).inFlight = s.inFlight := rfl
@[simp] theorem setStatus_px (st : Status) : (s.setStatus st).px = s.px := rfl
@[simp] theorem setStatus_result (st : Status) : (s.setStatus st).result = s.result := rfl
@[simp] theorem setStatus_caller (st : Status) : (s.setStatus st).caller = s.caller := rfl
@[simp] theorem setStatus_owed (st : Status) : (s.setStatus st).owed = s.owed := rfl
@[simp] theorem setStatus_policy (st : Status) : (s.setStatus st).policy = s.policy := rfl
@[simp] theorem setStatus_ctlAnswers (st : Status) : (s.setStatus st).ctlAnswers = s.ctlAnswers := rfl
@[simp] theorem setStatus_txAnswers (st : Status) : (s.setStatus st).txAnswers = s.txAnswers := rfl
@[simp] theorem setStatus_rdAnswers (st : Status) : (s.setStatus st).rdAnswers = s.rdAnswers := rfl
@[simp] theorem setStatus_waitAnswers (st : Status) : (s.setStatus st).waitAnswers = s.waitAnswers := rfl
@[simp] theorem setStatus_grants (st : Status) : (s.setStatus st).grants = s.grants := rfl
@[simp] theorem setStatus_arb (st : Status) : (s.setStatus st).arb = s.arb := rfl
@[simp] theorem setStatus_port (st : Status) : (s.setStatus st).port = s.port := rfl
@[simp] theorem setStatus_during (st : Status) : (s.setStatus st).during = s.during := rfl
@[simp] theorem setStatus_ordered (st : Status) : (s.setStatus st).ordered = s.ordered := rfl
@[simp] theorem setStatus_trace (st : Status) : (s.setStatus st).trace = s.trace := rfl

/-! ## `sample` -/

@[simp] theorem sample_fb (w : Word) : (s.sample w).fb = s.fb := rfl
@[simp] theorem sample_ctl (w : Word) : (s.sample w).ctl = s.ctl := rfl
@[simp] theorem sample_pstate (w : Word) : (s.sample w).pstate = s.pstate := rfl
@[simp] theorem sample_lock (w : Word) : (s.sample w).lock = s.lock := rfl
@[simp] theorem sample_waitq (w : Word) : (s.sample w).waitq = s.waitq := rfl
@[simp] theorem sample_lb (w : Word) : (s.sample w).lb = s.lb := rfl
@[simp] theorem sample_hdr (w : Word) : (s.sample w).hdr = s.hdr := rfl
@[simp] theorem sample_seq (w : Word) : (s.sample w).seq = s.seq := rfl
@[simp] theorem sample_status (w : Word) : (s.sample w).status = s.status := rfl
@[simp] theorem sample_policyS (w : Word) : (s.sample w).policyS = s.policyS := rfl
@[simp] theorem sample_inFlight (w : Word) : (s.sample w).inFlight = s.inFlight := rfl
@[simp] theorem sample_px (w : Word) : (s.sample w).px = s.px ++ [w] := rfl
@[simp] theorem sample_result (w : Word) : (s.sample w).result = s.result := rfl
@[simp] theorem sample_caller (w : Word) : (s.sample w).caller = s.caller := rfl
@[simp] theorem sample_owed (w : Word) : (s.sample w).owed = s.owed := rfl
@[simp] theorem sample_policy (w : Word) : (s.sample w).policy = s.policy := rfl
@[simp] theorem sample_ctlAnswers (w : Word) : (s.sample w).ctlAnswers = s.ctlAnswers := rfl
@[simp] theorem sample_txAnswers (w : Word) : (s.sample w).txAnswers = s.txAnswers := rfl
@[simp] theorem sample_rdAnswers (w : Word) : (s.sample w).rdAnswers = s.rdAnswers := rfl
@[simp] theorem sample_waitAnswers (w : Word) : (s.sample w).waitAnswers = s.waitAnswers := rfl
@[simp] theorem sample_grants (w : Word) : (s.sample w).grants = s.grants := rfl
@[simp] theorem sample_arb (w : Word) : (s.sample w).arb = s.arb := rfl
@[simp] theorem sample_port (w : Word) : (s.sample w).port = s.port := rfl
@[simp] theorem sample_during (w : Word) : (s.sample w).during = s.during := rfl
@[simp] theorem sample_ordered (w : Word) : (s.sample w).ordered = s.ordered := rfl
@[simp] theorem sample_trace (w : Word) : (s.sample w).trace = s.trace := rfl

/-! ## `setResult` -/

@[simp] theorem setResult_fb (st : Option Status) : (s.setResult st).fb = s.fb := rfl
@[simp] theorem setResult_ctl (st : Option Status) : (s.setResult st).ctl = s.ctl := rfl
@[simp] theorem setResult_pstate (st : Option Status) : (s.setResult st).pstate = s.pstate := rfl
@[simp] theorem setResult_lock (st : Option Status) : (s.setResult st).lock = s.lock := rfl
@[simp] theorem setResult_waitq (st : Option Status) : (s.setResult st).waitq = s.waitq := rfl
@[simp] theorem setResult_lb (st : Option Status) : (s.setResult st).lb = s.lb := rfl
@[simp] theorem setResult_hdr (st : Option Status) : (s.setResult st).hdr = s.hdr := rfl
@[simp] theorem setResult_seq (st : Option Status) : (s.setResult st).seq = s.seq := rfl
@[simp] theorem setResult_status (st : Option Status) : (s.setResult st).status = s.status := rfl
@[simp] theorem setResult_policyS (st : Option Status) : (s.setResult st).policyS = s.policyS := rfl
@[simp] theorem setResult_inFlight (st : Option Status) : (s.setResult st).inFlight = s.inFlight := rfl
@[simp] theorem setResult_px (st : Option Status) : (s.setResult st).px = s.px := rfl
@[simp] theorem setResult_result (st : Option Status) : (s.setResult st).result = st := rfl
@[simp] theorem setResult_caller (st : Option Status) : (s.setResult st).caller = s.caller := rfl
@[simp] theorem setResult_owed (st : Option Status) : (s.setResult st).owed = s.owed := rfl
@[simp] theorem setResult_policy (st : Option Status) : (s.setResult st).policy = s.policy := rfl
@[simp] theorem setResult_ctlAnswers (st : Option Status) : (s.setResult st).ctlAnswers = s.ctlAnswers := rfl
@[simp] theorem setResult_txAnswers (st : Option Status) : (s.setResult st).txAnswers = s.txAnswers := rfl
@[simp] theorem setResult_rdAnswers (st : Option Status) : (s.setResult st).rdAnswers = s.rdAnswers := rfl
@[simp] theorem setResult_waitAnswers (st : Option Status) : (s.setResult st).waitAnswers = s.waitAnswers := rfl
@[simp] theorem setResult_grants (st : Option Status) : (s.setResult st).grants = s.grants := rfl
@[simp] theorem setResult_arb (st : Option Status) : (s.setResult st).arb = s.arb := rfl
@[simp] theorem setResult_port (st : Option Status) : (s.setResult st).port = s.port := rfl
@[simp] theorem setResult_during (st : Option Status) : (s.setResult st).during = s.during := rfl
@[simp] theorem setResult_ordered (st : Option Status) : (s.setResult st).ordered = s.ordered := rfl
@[simp] theorem setResult_trace (st : Option Status) : (s.setResult st).trace = s.trace := rfl

/-! ## `packLine` -/

@[simp] theorem packLine_fb : (s.packLine).fb = s.fb := rfl
@[simp] theorem packLine_ctl : (s.packLine).ctl = s.ctl := rfl
@[simp] theorem packLine_pstate : (s.packLine).pstate = s.pstate := rfl
@[simp] theorem packLine_lock : (s.packLine).lock = s.lock := rfl
@[simp] theorem packLine_waitq : (s.packLine).waitq = s.waitq := rfl
@[simp] theorem packLine_lb : (s.packLine).lb = packRow s.px := rfl
@[simp] theorem packLine_hdr : (s.packLine).hdr = s.hdr := rfl
@[simp] theorem packLine_seq : (s.packLine).seq = s.seq := rfl
@[simp] theorem packLine_status : (s.packLine).status = s.status := rfl
@[simp] theorem packLine_policyS : (s.packLine).policyS = s.policyS := rfl
@[simp] theorem packLine_inFlight : (s.packLine).inFlight = s.inFlight := rfl
@[simp] theorem packLine_px : (s.packLine).px = [] := rfl
@[simp] theorem packLine_result : (s.packLine).result = s.result := rfl
@[simp] theorem packLine_caller : (s.packLine).caller = s.caller := rfl
@[simp] theorem packLine_owed : (s.packLine).owed = s.owed := rfl
@[simp] theorem packLine_policy : (s.packLine).policy = s.policy := rfl
@[simp] theorem packLine_ctlAnswers : (s.packLine).ctlAnswers = s.ctlAnswers := rfl
@[simp] theorem packLine_txAnswers : (s.packLine).txAnswers = s.txAnswers := rfl
@[simp] theorem packLine_rdAnswers : (s.packLine).rdAnswers = s.rdAnswers := rfl
@[simp] theorem packLine_waitAnswers : (s.packLine).waitAnswers = s.waitAnswers := rfl
@[simp] theorem packLine_grants : (s.packLine).grants = s.grants := rfl
@[simp] theorem packLine_arb : (s.packLine).arb = s.arb := rfl
@[simp] theorem packLine_port : (s.packLine).port = s.port := rfl
@[simp] theorem packLine_during : (s.packLine).during = s.during := rfl
@[simp] theorem packLine_ordered : (s.packLine).ordered = s.ordered := rfl
@[simp] theorem packLine_trace : (s.packLine).trace = s.trace := rfl

/-! ## `enqueue` -/

@[simp] theorem enqueue_fb (r : Req) (op : WaitOp) : (s.enqueue r op).fb = s.fb := rfl
@[simp] theorem enqueue_ctl (r : Req) (op : WaitOp) : (s.enqueue r op).ctl = s.ctl := rfl
@[simp] theorem enqueue_pstate (r : Req) (op : WaitOp) : (s.enqueue r op).pstate = s.pstate := rfl
@[simp] theorem enqueue_lock (r : Req) (op : WaitOp) : (s.enqueue r op).lock = s.lock := rfl
@[simp] theorem enqueue_waitq (r : Req) (op : WaitOp) : (s.enqueue r op).waitq = s.waitq ++ [(r, op)] := rfl
@[simp] theorem enqueue_lb (r : Req) (op : WaitOp) : (s.enqueue r op).lb = s.lb := rfl
@[simp] theorem enqueue_hdr (r : Req) (op : WaitOp) : (s.enqueue r op).hdr = s.hdr := rfl
@[simp] theorem enqueue_seq (r : Req) (op : WaitOp) : (s.enqueue r op).seq = s.seq := rfl
@[simp] theorem enqueue_status (r : Req) (op : WaitOp) : (s.enqueue r op).status = s.status := rfl
@[simp] theorem enqueue_policyS (r : Req) (op : WaitOp) : (s.enqueue r op).policyS = s.policyS := rfl
@[simp] theorem enqueue_inFlight (r : Req) (op : WaitOp) : (s.enqueue r op).inFlight = s.inFlight := rfl
@[simp] theorem enqueue_px (r : Req) (op : WaitOp) : (s.enqueue r op).px = s.px := rfl
@[simp] theorem enqueue_result (r : Req) (op : WaitOp) : (s.enqueue r op).result = s.result := rfl
@[simp] theorem enqueue_caller (r : Req) (op : WaitOp) : (s.enqueue r op).caller = s.caller := rfl
@[simp] theorem enqueue_owed (r : Req) (op : WaitOp) : (s.enqueue r op).owed = s.owed := rfl
@[simp] theorem enqueue_policy (r : Req) (op : WaitOp) : (s.enqueue r op).policy = s.policy := rfl
@[simp] theorem enqueue_ctlAnswers (r : Req) (op : WaitOp) : (s.enqueue r op).ctlAnswers = s.ctlAnswers := rfl
@[simp] theorem enqueue_txAnswers (r : Req) (op : WaitOp) : (s.enqueue r op).txAnswers = s.txAnswers := rfl
@[simp] theorem enqueue_rdAnswers (r : Req) (op : WaitOp) : (s.enqueue r op).rdAnswers = s.rdAnswers := rfl
@[simp] theorem enqueue_waitAnswers (r : Req) (op : WaitOp) : (s.enqueue r op).waitAnswers = s.waitAnswers := rfl
@[simp] theorem enqueue_grants (r : Req) (op : WaitOp) : (s.enqueue r op).grants = s.grants := rfl
@[simp] theorem enqueue_arb (r : Req) (op : WaitOp) : (s.enqueue r op).arb = s.arb := rfl
@[simp] theorem enqueue_port (r : Req) (op : WaitOp) : (s.enqueue r op).port = s.port := rfl
@[simp] theorem enqueue_during (r : Req) (op : WaitOp) : (s.enqueue r op).during = s.during := rfl
@[simp] theorem enqueue_ordered (r : Req) (op : WaitOp) : (s.enqueue r op).ordered = s.ordered := rfl
@[simp] theorem enqueue_trace (r : Req) (op : WaitOp) : (s.enqueue r op).trace = s.trace := rfl

/-! ## `owe` -/

@[simp] theorem owe_fb (r : Req) (st : Status) : (s.owe r st).fb = s.fb := rfl
@[simp] theorem owe_ctl (r : Req) (st : Status) : (s.owe r st).ctl = s.ctl := rfl
@[simp] theorem owe_pstate (r : Req) (st : Status) : (s.owe r st).pstate = s.pstate := rfl
@[simp] theorem owe_lock (r : Req) (st : Status) : (s.owe r st).lock = s.lock := rfl
@[simp] theorem owe_waitq (r : Req) (st : Status) : (s.owe r st).waitq = s.waitq := rfl
@[simp] theorem owe_lb (r : Req) (st : Status) : (s.owe r st).lb = s.lb := rfl
@[simp] theorem owe_hdr (r : Req) (st : Status) : (s.owe r st).hdr = s.hdr := rfl
@[simp] theorem owe_seq (r : Req) (st : Status) : (s.owe r st).seq = s.seq := rfl
@[simp] theorem owe_status (r : Req) (st : Status) : (s.owe r st).status = s.status := rfl
@[simp] theorem owe_policyS (r : Req) (st : Status) : (s.owe r st).policyS = s.policyS := rfl
@[simp] theorem owe_inFlight (r : Req) (st : Status) : (s.owe r st).inFlight = s.inFlight := rfl
@[simp] theorem owe_px (r : Req) (st : Status) : (s.owe r st).px = s.px := rfl
@[simp] theorem owe_result (r : Req) (st : Status) : (s.owe r st).result = s.result := rfl
@[simp] theorem owe_caller (r : Req) (st : Status) : (s.owe r st).caller = s.caller := rfl
@[simp] theorem owe_owed (r : Req) (st : Status) : (s.owe r st).owed = s.owed ++ [(r, st)] := rfl
@[simp] theorem owe_policy (r : Req) (st : Status) : (s.owe r st).policy = s.policy := rfl
@[simp] theorem owe_ctlAnswers (r : Req) (st : Status) : (s.owe r st).ctlAnswers = s.ctlAnswers := rfl
@[simp] theorem owe_txAnswers (r : Req) (st : Status) : (s.owe r st).txAnswers = s.txAnswers := rfl
@[simp] theorem owe_rdAnswers (r : Req) (st : Status) : (s.owe r st).rdAnswers = s.rdAnswers := rfl
@[simp] theorem owe_waitAnswers (r : Req) (st : Status) : (s.owe r st).waitAnswers = s.waitAnswers := rfl
@[simp] theorem owe_grants (r : Req) (st : Status) : (s.owe r st).grants = s.grants := rfl
@[simp] theorem owe_arb (r : Req) (st : Status) : (s.owe r st).arb = s.arb := rfl
@[simp] theorem owe_port (r : Req) (st : Status) : (s.owe r st).port = s.port := rfl
@[simp] theorem owe_during (r : Req) (st : Status) : (s.owe r st).during = s.during := rfl
@[simp] theorem owe_ordered (r : Req) (st : Status) : (s.owe r st).ordered = s.ordered := rfl
@[simp] theorem owe_trace (r : Req) (st : Status) : (s.owe r st).trace = s.trace := rfl

/-! ## `putTrailer` -/

@[simp] theorem putTrailer_fb : (s.putTrailer).fb = s.fb := rfl
@[simp] theorem putTrailer_ctl : (s.putTrailer).ctl = s.ctl := rfl
@[simp] theorem putTrailer_pstate : (s.putTrailer).pstate = s.pstate := rfl
@[simp] theorem putTrailer_lock : (s.putTrailer).lock = s.lock := rfl
@[simp] theorem putTrailer_waitq : (s.putTrailer).waitq = s.waitq := rfl
@[simp] theorem putTrailer_lb : (s.putTrailer).lb = s.lb.take Config.pixBytes ++ trailerZeros := rfl
@[simp] theorem putTrailer_hdr : (s.putTrailer).hdr = s.hdr := rfl
@[simp] theorem putTrailer_seq : (s.putTrailer).seq = s.seq := rfl
@[simp] theorem putTrailer_status : (s.putTrailer).status = s.status := rfl
@[simp] theorem putTrailer_policyS : (s.putTrailer).policyS = s.policyS := rfl
@[simp] theorem putTrailer_inFlight : (s.putTrailer).inFlight = s.inFlight := rfl
@[simp] theorem putTrailer_px : (s.putTrailer).px = s.px := rfl
@[simp] theorem putTrailer_result : (s.putTrailer).result = s.result := rfl
@[simp] theorem putTrailer_caller : (s.putTrailer).caller = s.caller := rfl
@[simp] theorem putTrailer_owed : (s.putTrailer).owed = s.owed := rfl
@[simp] theorem putTrailer_policy : (s.putTrailer).policy = s.policy := rfl
@[simp] theorem putTrailer_ctlAnswers : (s.putTrailer).ctlAnswers = s.ctlAnswers := rfl
@[simp] theorem putTrailer_txAnswers : (s.putTrailer).txAnswers = s.txAnswers := rfl
@[simp] theorem putTrailer_rdAnswers : (s.putTrailer).rdAnswers = s.rdAnswers := rfl
@[simp] theorem putTrailer_waitAnswers : (s.putTrailer).waitAnswers = s.waitAnswers := rfl
@[simp] theorem putTrailer_grants : (s.putTrailer).grants = s.grants := rfl
@[simp] theorem putTrailer_arb : (s.putTrailer).arb = s.arb := rfl
@[simp] theorem putTrailer_port : (s.putTrailer).port = s.port := rfl
@[simp] theorem putTrailer_during : (s.putTrailer).during = s.during := rfl
@[simp] theorem putTrailer_ordered : (s.putTrailer).ordered = s.ordered := rfl
@[simp] theorem putTrailer_trace : (s.putTrailer).trace = s.trace := rfl

/-! ## `resetTo` -/

@[simp] theorem resetTo_fb (u : Scratch) : (s.resetTo u).fb = Memory.ofCells u.fb := rfl
@[simp] theorem resetTo_ctl (u : Scratch) : (s.resetTo u).ctl = ⟨false, false, false, false⟩ := rfl
@[simp] theorem resetTo_pstate (u : Scratch) : (s.resetTo u).pstate = .uninitialized := rfl
@[simp] theorem resetTo_lock (u : Scratch) : (s.resetTo u).lock = .free := rfl
@[simp] theorem resetTo_waitq (u : Scratch) : (s.resetTo u).waitq = [] := rfl
@[simp] theorem resetTo_lb (u : Scratch) : (s.resetTo u).lb = fitBytes Config.encBytes u.lb := rfl
@[simp] theorem resetTo_hdr (u : Scratch) : (s.resetTo u).hdr = fitBytes Config.hdrBytes u.hdr := rfl
@[simp] theorem resetTo_seq (u : Scratch) : (s.resetTo u).seq = ⟨.idle, .start, 0, 0⟩ := rfl
@[simp] theorem resetTo_status (u : Scratch) : (s.resetTo u).status = u.status := rfl
@[simp] theorem resetTo_policyS (u : Scratch) : (s.resetTo u).policyS = u.policyS := rfl
@[simp] theorem resetTo_inFlight (u : Scratch) : (s.resetTo u).inFlight = none := rfl
@[simp] theorem resetTo_px (u : Scratch) : (s.resetTo u).px = [] := rfl
@[simp] theorem resetTo_result (u : Scratch) : (s.resetTo u).result = none := rfl
@[simp] theorem resetTo_caller (u : Scratch) : (s.resetTo u).caller = 0 := rfl
@[simp] theorem resetTo_owed (u : Scratch) : (s.resetTo u).owed = [] := rfl
@[simp] theorem resetTo_policy (u : Scratch) : (s.resetTo u).policy = s.policy := rfl
@[simp] theorem resetTo_ctlAnswers (u : Scratch) : (s.resetTo u).ctlAnswers = s.ctlAnswers := rfl
@[simp] theorem resetTo_txAnswers (u : Scratch) : (s.resetTo u).txAnswers = s.txAnswers := rfl
@[simp] theorem resetTo_rdAnswers (u : Scratch) : (s.resetTo u).rdAnswers = s.rdAnswers := rfl
@[simp] theorem resetTo_waitAnswers (u : Scratch) : (s.resetTo u).waitAnswers = s.waitAnswers := rfl
@[simp] theorem resetTo_grants (u : Scratch) : (s.resetTo u).grants = s.grants := rfl
@[simp] theorem resetTo_arb (u : Scratch) : (s.resetTo u).arb = s.arb := rfl
@[simp] theorem resetTo_port (u : Scratch) : (s.resetTo u).port = s.port := rfl
@[simp] theorem resetTo_during (u : Scratch) : (s.resetTo u).during = s.during := rfl
@[simp] theorem resetTo_ordered (u : Scratch) : (s.resetTo u).ordered = none := rfl
@[simp] theorem resetTo_trace (u : Scratch) : (s.resetTo u).trace = s.trace := rfl

end Sys2Proof.Machine.State
end

