-- ==== Sys2Proof/Laws/Ops.lean ====
section
/-! SUPPORT. One lemma for each shared operation that says everything it can do. -/

namespace Sys2Proof.Machine

/-! ## Scripts -/

@[simp] theorem Script.get_drop {α : Type} (c : Script α) (n k : Nat) : (c.drop n).get k = c.get (n + k) := by
  simp [Script.get, Script.drop, List.getD_eq_getElem?_getD, List.getElem?_drop]

@[simp] theorem Script.drop_drop {α : Type} (c : Script α) (n k : Nat) : (c.drop n).drop k = c.drop (n + k) := by
  simp [Script.drop, List.drop_drop]

@[simp] theorem Script.drop_zero {α : Type} (c : Script α) : c.drop 0 = c := rfl

/-! ## The primitives alone -/

/-- A control-line call that answers: the line as answered, the event recorded, one answer used. -/
theorem ctlSetNow_answers {l : Line} {v : Bool} {s : State} (h : s.ctlAnswers.get 0 ≠ .never) :
    ctlSetNow l v s = .ok (decide (s.ctlAnswers.get 0 = .ok))
      { s with
        ctl := s.ctl.answered l v (s.ctlAnswers.get 0)
        ctlAnswers := s.ctlAnswers.drop 1
        trace := s.trace ++ [setEvent l v (s.ctlAnswers.get 0)] } := by
  unfold ctlSetNow Ctl.answered setEvent State.setLine State.emit
  cases hc : s.ctlAnswers.get 0 with
  | ok => rfl
  | fail => rfl
  | never => exact absurd hc h

/-- A control-line call that never returns: the block is stuck in it and nothing else has happened. -/
theorem ctlSetNow_never {l : Line} {v : Bool} {s : State} (h : s.ctlAnswers.get 0 = .never) :
    ctlSetNow l v s = .error .stuck
      { s with ctlAnswers := s.ctlAnswers.drop 1, inFlight := some (.ctlSet l v) } := by
  unfold ctlSetNow; rw [h]

/-- A transport call that answers `ok`. -/
theorem txNow_ok {bytes : List Byte} {s : State} (h : s.txAnswers.get 0 = .ok) :
    txNow bytes s = .ok true
      { s with txAnswers := s.txAnswers.drop 1, trace := s.trace ++ [.tx bytes .ok] } := by
  unfold txNow; rw [h]; rfl

/-- A transport call that fails, after some of its bytes. -/
theorem txNow_fail {bytes : List Byte} {n : Nat} {s : State} (h : s.txAnswers.get 0 = .fail n) :
    txNow bytes s = .ok false
      { s with
        txAnswers := s.txAnswers.drop 1
        trace := s.trace ++ [.tx bytes (.fail (min n bytes.length))] } := by
  unfold txNow; rw [h]; rfl

/-- A transport call that never returns. -/
theorem txNow_never {bytes : List Byte} {s : State} (h : s.txAnswers.get 0 = .never) :
    txNow bytes s = .error .stuck { s with txAnswers := s.txAnswers.drop 1, inFlight := some (.tx bytes) } := by
  unfold txNow; rw [h]

/-- A frame-buffer read that returns: the word at that moment, the buffer unchanged. -/
theorem rdNow_returns {a : Nat} {s : State} (ha : a + 3 < Config.fbBytes) (h : s.rdAnswers.get 0 = true) :
    rdNow a s = .ok (s.fb.pixel a)
      { s with rdAnswers := s.rdAnswers.drop 1, trace := s.trace ++ [.rd a (s.fb.pixel a)] } := by
  unfold rdNow; rw [if_pos ha, if_pos h]; rfl

/-- A frame-buffer read that never returns. -/
theorem rdNow_never {a : Nat} {s : State} (ha : a + 3 < Config.fbBytes) (h : s.rdAnswers.get 0 = false) :
    rdNow a s = .error .stuck { s with rdAnswers := s.rdAnswers.drop 1, inFlight := some (.rd a) } := by
  unfold rdNow; rw [if_pos ha, h]; rfl

/-- A read at an offset that does not exist. -/
theorem rdNow_outside {a : Nat} {s : State} (ha : ¬ a + 3 < Config.fbBytes) :
    rdNow a s = .error (.fault (.noSuchAddress a)) s := by
  unfold rdNow; rw [if_neg ha]

/-- A wait that ends: the event, and one answer used. -/
theorem waitNow_ends {d : Delay} {s : State} (h : s.waitAnswers.get 0 = true) :
    waitNow d s = .ok () { s with waitAnswers := s.waitAnswers.drop 1, trace := s.trace ++ [.wait d] } := by
  unfold waitNow; rw [if_pos h]; rfl

/-- A wait that never ends: the block is stuck in it. -/
theorem waitNow_never {d : Delay} {s : State} (h : s.waitAnswers.get 0 = false) :
    waitNow d s = .error .stuck { s with waitAnswers := s.waitAnswers.drop 1, inFlight := some (.wait d) } := by
  unfold waitNow; rw [h]; rfl

/-- With the lock free, a command that is owed its return gets it, and no other does. -/
theorem answerNow_owed {k : Nat} {r : Req} {st : Status} {s : State} (hl : s.lock = .free)
    (h : s.owed[k]? = some (r, st)) :
    answerNow k s = .ok ()
      { s with owed := s.owed.eraseIdx k, status := st, trace := s.trace ++ [.ret r st] } := by
  unfold answerNow; rw [hl, h]; rfl

/-- With the lock held, no return is given. -/
theorem answerNow_held {k : Nat} {r : Req} {s : State} (hl : s.lock = .held r) : answerNow k s = .ok () s := by
  unfold answerNow; rw [hl]

/-- Where nothing is owed, nothing happens. -/
theorem answerNow_none {k : Nat} {s : State} (h : s.owed[k]? = none) : answerNow k s = .ok () s := by
  unfold answerNow; rw [h]; cases s.lock <;> rfl

/-- A command issued outside INIT is recorded and nothing else. -/
theorem issue_accepted {r : Req} {op : BitVec 3} {s : State} (hu : s.seq.unit ≠ .init)
    (hp : s.pstate ≠ .initializing) : issue r op s = .ok () (s.emit (.cmd r op)) := by
  unfold issue; rw [if_neg (by simp [hu, hp])]

/-- A command issued during INIT is refused. -/
theorem issue_refused {r : Req} {op : BitVec 3} {s : State} (h : s.seq.unit = .init ∨ s.pstate = .initializing) :
    issue r op s = .error (.refused .commandDuringInit) s := by
  unfold issue; rw [if_pos h]

/-! ## The environment's turn -/

/-- With nothing scheduled the environment's turn does nothing. -/
theorem envTurn_quiet {s : State} (h : s.during = []) : envTurn s = .ok () s := by
  unfold envTurn; rw [h]

theorem envTurn_bind_quiet {α : Type} {f : Unit → Act α} {s : State} (h : s.during = []) :
    (envTurn >>= f) s = f () s := Act.bind_ok (envTurn_quiet h)

/-- An empty slot: the environment lets one event pass. -/
theorem envTurn_pause {s : State} {later : List (List Input)} (h : s.during = [] :: later) :
    envTurn s = .ok () { s with during := later } := by
  unfold envTurn; rw [h]; rfl

theorem ctlSet_quiet {l : Line} {v : Bool} {s : State} (h : s.during = []) : ctlSet l v s = ctlSetNow l v s :=
  envTurn_bind_quiet h

theorem tx_quiet {bytes : List Byte} {s : State} (h : s.during = []) : tx bytes s = txNow bytes s :=
  envTurn_bind_quiet h

theorem rd_quiet {a : Nat} {s : State} (h : s.during = []) : rd a s = rdNow a s := envTurn_bind_quiet h

theorem wait_quiet {d : Delay} {s : State} (h : s.during = []) : wait d s = waitNow d s := envTurn_bind_quiet h

theorem release_quiet {r : Req} {s : State} (h : s.during = []) :
    release r s = .ok () (({ s with lock := .free }.emit (.rel r)).setUnit .idle) := envTurn_bind_quiet h

theorem ret_quiet {r : Req} {st : Status} {s : State} (h : s.during = []) :
    ret r st s = .ok () ((s.setStatus st).emit (.ret r st)) := envTurn_bind_quiet h

/-- With nothing scheduled no INIT goes first. -/
theorem openTurn_quiet {s : State} (h : s.during = []) : openTurn s = .ok false s := by
  unfold openTurn; rw [h]

@[simp] theorem beforeInit_nil (s : State) : s.beforeInit [] = [] := by unfold State.beforeInit; split <;> rfl

/-- An INIT that would be accepted and heads its slot has nothing before it. -/
theorem beforeInit_init {s : State} (hp : s.pstate = .uninitialized) (q : Req) (slot : List Input) :
    s.beforeInit (.cmd q 0b001#3 :: slot) = [] := by
  unfold State.beforeInit; rw [if_pos hp]; rfl

/-- Where no INIT would be accepted, the whole slot comes first. -/
theorem beforeInit_self {s : State} {slot : List Input}
    (hs : ∀ i ∈ slot, s.pstate = .uninitialized → i.isInit = false) : s.beforeInit slot = slot := by
  unfold State.beforeInit
  split
  · exact List.takeWhile_eq_self_iff.2 fun i hi => by simp [hs i hi ‹_›]
  · rfl

/-- What comes before an INIT is from the slot. -/
theorem mem_of_mem_beforeInit {s : State} {slot : List Input} {i : Input} (h : i ∈ s.beforeInit slot) : i ∈ slot := by
  unfold State.beforeInit at h
  split at h
  · exact (List.takeWhile_sublist _).mem h
  · exact h

/-- An empty slot: the environment lets one event pass, and no INIT goes first. -/
theorem openTurn_pause {s : State} {later : List (List Input)} (h : s.during = [] :: later) :
    openTurn s = .ok false { s with during := later } := by
  unfold openTurn; rw [h]; simp [applyInputs]

/-- Without an INIT that would be accepted, the turn is the environment's turn inside an operation. -/
theorem openTurn_eq_envTurn {s t : State} (hs : ∀ i ∈ s.during.headD [], s.pstate = .uninitialized → i.isInit = false)
    (h : envTurn s = .ok () t) : openTurn s = .ok false t := by
  unfold envTurn at h
  unfold openTurn
  cases hd : s.during with
  | nil => rw [hd] at h; cases h; rfl
  | cons slot later =>
    rw [hd] at h hs
    have h' : applyInputs slot { s with during := later } = .ok () t := h
    have hb : s.beforeInit slot = slot := beforeInit_self hs
    simp [hb, h']

/-- An INIT that would be accepted and heads its slot goes first, with what follows it. -/
theorem openTurn_init {s : State} {q : Req} {slot : List Input} {later : List (List Input)}
    (hp : s.pstate = .uninitialized) (h : s.during = (.cmd q 0b001#3 :: slot) :: later) :
    openTurn s = .ok true
      { s with during := later, port := some (.cmd q 0b001#3) :: slot.map some ++ s.port } := by
  unfold openTurn; rw [h]; simp [beforeInit_init hp, applyInputs]

/-- Everything the return of a command turned away at an idle block can do once what stands before it has happened: the
event, or a return that is owed. -/
theorem retTurnedAway_after {r : Req} {b : Bool} {s t : State} (h : openTurn s = .ok b t) :
    retTurnedAway r s = .ok ()
      (if s.putsOff || b then t.owe r .invalidArgument
        else (t.setStatus .invalidArgument).emit (.ret r .invalidArgument)) := by
  unfold retTurnedAway
  rw [Act.read_bind_apply, Act.bind_ok h]
  split <;> rfl

/-! ## The lock -/

/-- With the lock free, the chosen waiting entry gets it. -/
theorem grantLock_free {s : State} {r : Req} {op : WaitOp} (hl : s.lock = .free)
    (hw : s.waitq[s.arb.get 0 % s.waitq.length]? = some (r, op)) :
    grantLock s = .ok (some (r, op))
      { s with
        lock := .held r
        caller := r
        waitq := s.waitq.eraseIdx (s.arb.get 0 % s.waitq.length)
        arb := s.arb.drop 1
        trace := s.trace ++ [.acq r] } := by
  unfold grantLock; rw [if_pos hl, hw]; rfl

/-- With the lock held, nobody gets it. -/
theorem grantLock_held {s : State} (hl : s.lock ≠ .free) : grantLock s = .ok none s := by
  unfold grantLock; rw [if_neg hl]

end Sys2Proof.Machine
end

