-- ==== Sys2Proof/Laws/Environment.lean ====
section
/-! SUPPORT. The environment's turn keeps what every input keeps; the primitives inside an operation at which nothing
arrives; requests and the end of a refresh; the reads of a row. -/

namespace Sys2Proof.Machine

/-! ## Properties kept by the environment -/

/-- What every input of a kind `Q` keeps, a slot of such inputs keeps. -/
theorem applyInputs_keeps {P : State → Prop} {Q : Input → Prop}
    (hport : ∀ s p, P s → P { s with port := p }) (hin : ∀ i, Q i → Act.Keeps P (applyInput i)) :
    ∀ is : List Input, (∀ i ∈ is, Q i) → Act.Keeps P (applyInputs is)
  | [], _ => fun _ h => h
  | i :: is, hq => by
    intro s hs
    have h := hin i (hq i (by simp)) s hs
    have ih := applyInputs_keeps hport hin is fun j hj => hq j (by simp [hj])
    unfold Act.final at h
    unfold Act.final applyInputs
    cases hi : applyInput i s with
    | ok a t =>
      rw [hi] at h
      exact ih t h
    | error e t =>
      rw [hi] at h
      exact hport _ _ h

/-- What every scheduled input keeps, the environment's turn keeps. -/
theorem envTurn_keeps {P : State → Prop} {Q : Input → Prop}
    (hport : ∀ s p, P s → P { s with port := p }) (hduring : ∀ s d slot, s.during = slot :: d → P s → P { s with during := d })
    (hq : ∀ s, P s → ∀ slot ∈ s.during, ∀ i ∈ slot, Q i) (hin : ∀ i, Q i → Act.Keeps P (applyInput i)) :
    Act.Keeps P envTurn := by
  intro s hs
  unfold Act.final envTurn
  cases hd : s.during with
  | nil => exact hs
  | cons slot d =>
    exact applyInputs_keeps hport hin slot (hq s hs slot (by rw [hd]; simp)) _ (hduring s d slot hd hs)

/-- What every scheduled input keeps, the turn before a grant or a return keeps. -/
theorem openTurn_keeps {P : State → Prop} {Q : Input → Prop}
    (hport : ∀ s p, P s → P { s with port := p }) (hduring : ∀ s d slot, s.during = slot :: d → P s → P { s with during := d })
    (hq : ∀ s, P s → ∀ slot ∈ s.during, ∀ i ∈ slot, Q i) (hin : ∀ i, Q i → Act.Keeps P (applyInput i)) :
    Act.Keeps P openTurn := by
  intro s hs
  unfold Act.final openTurn
  cases hd : s.during with
  | nil => exact hs
  | cons slot d =>
    have h := applyInputs_keeps hport hin (s.beforeInit slot)
      (fun i hi => hq s hs slot (by rw [hd]; simp) i (mem_of_mem_beforeInit hi)) _
      (hport _ ((slot.drop (s.beforeInit slot).length).map some ++ s.port) (hduring s d slot hd hs))
    unfold Act.final at h
    dsimp only at h ⊢
    split at h <;> simp_all

/-- A primitive inside an operation keeps what the environment and the primitive alone keep. -/
theorem afterTurn_keeps {α : Type} {P : State → Prop} {x : Act α} (he : Act.Keeps P envTurn) (hx : Act.Keeps P x) :
    Act.Keeps P (envTurn >>= fun _ => x) := he.bind fun _ => hx

/-! ## Primitives at which nothing arrives -/

theorem ctlSet_answers {l : Line} {v : Bool} {s : State} (hq : s.during = []) (h : s.ctlAnswers.get 0 ≠ .never) :
    ctlSet l v s = .ok (decide (s.ctlAnswers.get 0 = .ok))
      { s with
        ctl := s.ctl.answered l v (s.ctlAnswers.get 0)
        ctlAnswers := s.ctlAnswers.drop 1
        trace := s.trace ++ [setEvent l v (s.ctlAnswers.get 0)] } := by
  rw [ctlSet_quiet hq, ctlSetNow_answers h]

theorem tx_ok {bytes : List Byte} {s : State} (hq : s.during = []) (h : s.txAnswers.get 0 = .ok) :
    tx bytes s = .ok true { s with txAnswers := s.txAnswers.drop 1, trace := s.trace ++ [.tx bytes .ok] } := by
  rw [tx_quiet hq, txNow_ok h]

theorem tx_fail {bytes : List Byte} {n : Nat} {s : State} (hq : s.during = []) (h : s.txAnswers.get 0 = .fail n) :
    tx bytes s = .ok false
      { s with txAnswers := s.txAnswers.drop 1, trace := s.trace ++ [.tx bytes (.fail (min n bytes.length))] } := by
  rw [tx_quiet hq, txNow_fail h]

theorem wait_ends {d : Delay} {s : State} (hq : s.during = []) (h : s.waitAnswers.get 0 = true) :
    wait d s = .ok () { s with waitAnswers := s.waitAnswers.drop 1, trace := s.trace ++ [.wait d] } := by
  rw [wait_quiet hq, waitNow_ends h]

theorem rd_returns {a : Nat} {s : State} (hq : s.during = []) (ha : a + 3 < Config.fbBytes)
    (h : s.rdAnswers.get 0 = true) :
    rd a s = .ok (s.fb.pixel a)
      { s with rdAnswers := s.rdAnswers.drop 1, trace := s.trace ++ [.rd a (s.fb.pixel a)] } := by
  rw [rd_quiet hq, rdNow_returns ha h]

/-! ## Requests, the buffer check, a producer's byte, the end of a refresh -/

@[simp] theorem grantNow_apply (s : State) :
    grantNow s = .ok (s.grants.get 0) { s with grants := s.grants.drop 1 } := rfl

theorem requestRefresh_accepted {r : Req} {s : State} (hu : s.seq.unit ≠ .init) (hp : s.pstate ≠ .initializing) :
    requestRefresh r s = .ok ()
      { s with waitq := s.waitq ++ [(r, .refresh)], trace := s.trace ++ [.cmd r 0b010#3] } := by
  unfold requestRefresh
  rw [Act.bind_ok (issue_accepted hu hp)]
  rfl

theorem requestDetach_accepted {r : Req} {s : State} (hu : s.seq.unit ≠ .init) (hp : s.pstate ≠ .initializing)
    (ho : s.pstate ≠ .off) :
    requestDetach r s = .ok true
      { s with waitq := s.waitq ++ [(r, .detach)], trace := s.trace ++ [.cmd r 0b101#3] } := by
  unfold requestDetach
  rw [Act.bind_ok (issue_accepted hu hp), Act.read_bind_apply, if_neg (by simpa using ho)]
  rfl

theorem requestDetach_off {r : Req} {s : State} (hu : s.seq.unit ≠ .init) (ho : s.pstate = .off) :
    requestDetach r s = .ok false { s with trace := s.trace ++ [.cmd r 0b101#3] } := by
  unfold requestDetach
  rw [Act.bind_ok (issue_accepted hu (by rw [ho]; decide)), Act.read_bind_apply, if_pos (by simpa using ho)]
  rfl

/-- A producer's byte inside the buffer is written and recorded; one outside it does nothing. -/
theorem produceByte_apply (a : Nat) (b : Byte) (s : State) :
    produceByte a b s = .ok ()
      (if a < Config.fbBytes then { s with fb := s.fb.write a b, trace := s.trace ++ [.wr a b] } else s) := by
  unfold produceByte Memory.produce State.emit
  split <;> simp_all

/-- Producers' bytes in one slot: each that falls inside the buffer is written and recorded, in order. -/
theorem applyInputs_writes :
    ∀ (ws : List Host.Cell) (s : State), applyInputs (ws.map fun w => .wr w.1 w.2) s = .ok ()
      { s with fb := s.fb.produceAll ws, trace := s.trace ++ writeEvents ws }
  | [], s => by simp [applyInputs, Memory.produceAll, writeEvents]
  | w :: ws, s => by
    have h : applyInput (.wr w.1 w.2) s = .ok ()
        (if w.1 < Config.fbBytes then { s with fb := s.fb.write w.1 w.2, trace := s.trace ++ [.wr w.1 w.2] } else s) :=
      produceByte_apply w.1 w.2 s
    simp only [List.map_cons, applyInputs, h, applyInputs_writes ws]
    by_cases hw : w.1 < Config.fbBytes <;>
      simp [hw, Memory.produceAll, Memory.produce, writeEvents, Config.fbBytes] at *

/-- The environment's turn when all that is scheduled before the next event are producers' bytes; none is a case of it. -/
theorem envTurn_writes {s : State} {ws : List Host.Cell} (h : s.during.headD [] = ws.map fun w => .wr w.1 w.2) :
    envTurn s = .ok ()
      { s with fb := s.fb.produceAll ws, during := s.during.tail, trace := s.trace ++ writeEvents ws } := by
  unfold envTurn
  cases hd : s.during with
  | nil =>
    rw [hd] at h
    obtain rfl : ws = [] := by simpa using h.symm
    cases s
    cases hd
    simp [Memory.produceAll, writeEvents]
  | cons slot later =>
    rw [hd] at h
    obtain rfl : slot = _ := h
    simp [applyInputs_writes]

/-- A return before which only producers' bytes are scheduled comes right after them. -/
theorem ret_writes {r : Req} {st : Status} {s : State} {ws : List Host.Cell}
    (h : s.during.headD [] = ws.map fun w => .wr w.1 w.2) :
    ret r st s = .ok ()
      { s with
        fb := s.fb.produceAll ws
        during := s.during.tail
        status := st
        trace := s.trace ++ writeEvents ws ++ [.ret r st] } := Act.bind_ok (envTurn_writes h)

/-- The same of the return of a command turned away at an idle block. -/
theorem retTurnedAway_writes {r : Req} {s : State} {ws : List Host.Cell}
    (h : s.during.headD [] = ws.map fun w => .wr w.1 w.2) :
    retTurnedAway r s = .ok ()
      { s with
        fb := s.fb.produceAll ws
        during := s.during.tail
        status := .invalidArgument
        trace := s.trace ++ writeEvents ws ++ [.ret r .invalidArgument] } := by
  have hp : s.putsOff = false := by unfold State.putsOff; rw [h]; simp
  have ho := openTurn_eq_envTurn (s := s) (fun i hi _ => by
    rw [h] at hi
    obtain ⟨w, -, rfl⟩ := List.mem_map.1 hi
    rfl) (envTurn_writes h)
  rw [retTurnedAway_after ho, hp]
  rfl

theorem finishRefresh_quiet {r : Req} {st : Status} {s : State} (hq : s.during = []) :
    finishRefresh r st s = .ok ()
      { s with
        lock := .free
        seq := { s.seq with unit := .idle }
        status := st
        trace := s.trace ++ [.rel r, .ret r st] } := by
  unfold finishRefresh
  rw [Act.bind_ok (release_quiet hq), ret_quiet (by simpa using hq)]
  simp [State.emit, State.setUnit, State.setStatus]

/-! ## The reads of a row -/

/-- The reads of the given columns, when each returns and nothing arrives: one sampled word and one event a column, in
order; the sequencer's pixel index ends at the last column. -/
theorem readPixels_quiet {y : Nat} (hy : y < Config.height) :
    ∀ (xs : List (Fin 400)) (s : State), s.during = [] → (∀ n, n < xs.length → s.rdAnswers.get n = true) →
      readPixels y xs s = .ok ()
        { s with
          px := s.px ++ xs.map fun x => s.fb.pixel (pixelAddr y x)
          seq := { s.seq with pxi := xs.getLast?.getD s.seq.pxi }
          rdAnswers := s.rdAnswers.drop xs.length
          trace := s.trace ++ xs.map fun x => Event.rd (pixelAddr y x) (s.fb.pixel (pixelAddr y x)) }
  | [], s, _, _ => by simp [readPixels]
  | x :: xs, s, hq, hr => by
    have ha : pixelAddr y x + 3 < Config.fbBytes := by
      have := x.isLt
      simp only [pixelAddr, Config.stride, Config.fbBytes, Config.height] at *
      omega
    have h0 := hr 0 (by simp)
    unfold readPixels
    rw [Act.update_bind_apply, Act.bind_ok (rd_returns (by simpa using hq) ha (by simpa using h0)),
      Act.update_bind_apply, readPixels_quiet hy xs _ (by simpa using hq)
        (fun n hn => by simpa [Nat.add_comm] using hr (n + 1) (by simp; omega))]
    cases xs <;> simp [Nat.add_comm, List.getLast?_cons]

end Sys2Proof.Machine
end

