-- ==== Sys2Proof/Laws/Memory.lean ====
section
/-! SUPPORT. The frame buffer: a read after a write, and the canonical form kept by every memory operation. -/

namespace Sys2Proof.Machine.Memory

/-- Every address of the contents is above `a`. -/
def Above (a : Nat) (m : Memory) : Prop := ∀ c ∈ m, a < c.1

theorem rising_cons {c : Host.Cell} {m : Memory} : rising (c :: m) = true ↔ Above c.1 m ∧ rising m = true := by
  induction m generalizing c with
  | nil => simp [rising, Above]
  | cons d m ih =>
    simp only [rising, Bool.and_eq_true, decide_eq_true_eq, Above, List.mem_cons, forall_eq_or_imp]
    constructor
    · rintro ⟨h, hr⟩
      exact ⟨⟨h, fun e he => Nat.lt_trans h ((ih.1 hr).1 e he)⟩, hr⟩
    · rintro ⟨⟨h, -⟩, hr⟩
      exact ⟨h, hr⟩

theorem wf_cons {c : Host.Cell} {m : Memory} :
    wf (c :: m) = true ↔ Above c.1 m ∧ c.1 < Config.fbBytes ∧ c.2 ≠ unlisted ∧ wf m = true := by
  simp only [wf, Bool.and_eq_true, rising_cons, List.all_cons, decide_eq_true_eq]
  tauto

theorem wf_nil : wf [] = true := rfl

theorem read_of_above {a : Nat} {m : Memory} (h : Above a m) : read m a = unlisted := by
  induction m with
  | nil => rfl
  | cons c m ih =>
    have hc := h c (by simp)
    simp only [read]
    rw [if_neg (by omega)]
    exact ih fun e he => h e (by simp [he])

theorem above_erase {k a : Nat} {m : Memory} (h : Above k m) : Above k (erase m a) :=
  fun c hc => h c (List.mem_of_mem_filter hc)

theorem above_place {k a : Nat} {b : Byte} {m : Memory} (h : Above k m) (ha : k < a) : Above k (place m a b) := by
  induction m with
  | nil => intro c hc; simp [place] at hc; subst hc; exact ha
  | cons d m ih =>
    have hm : Above k m := fun e he => h e (by simp [he])
    have hd := h d (by simp)
    intro c hc
    simp only [place] at hc
    split at hc
    · simp only [List.mem_cons] at hc
      rcases hc with rfl | rfl | hc
      · exact ha
      · exact hd
      · exact hm c hc
    · split at hc
      · simp only [List.mem_cons] at hc
        rcases hc with rfl | hc
        · exact ha
        · exact hm c hc
      · simp only [List.mem_cons] at hc
        rcases hc with rfl | hc
        · exact hd
        · exact ih hm c hc

theorem wf_erase {m : Memory} (a : Nat) (h : wf m = true) : wf (erase m a) = true := by
  induction m with
  | nil => rfl
  | cons c m ih =>
    obtain ⟨h1, h2, h3, h4⟩ := wf_cons.1 h
    simp only [erase, List.filter_cons]
    split
    · exact wf_cons.2 ⟨above_erase h1, h2, h3, ih h4⟩
    · exact ih h4

theorem wf_place {m : Memory} {a : Nat} {b : Byte} (ha : a < Config.fbBytes) (hb : b ≠ unlisted)
    (h : wf m = true) : wf (place m a b) = true := by
  induction m with
  | nil => exact wf_cons.2 ⟨by simp [Above], ha, hb, rfl⟩
  | cons c m ih =>
    obtain ⟨h1, h2, h3, h4⟩ := wf_cons.1 h
    simp only [place]
    split
    · refine wf_cons.2 ⟨?_, ha, hb, h⟩
      intro e he
      simp only [List.mem_cons] at he
      rcases he with rfl | he
      · assumption
      · exact Nat.lt_trans ‹_› (h1 e he)
    · split
      · subst ‹a = _›
        exact wf_cons.2 ⟨h1, ha, hb, h4⟩
      · exact wf_cons.2 ⟨above_place h1 (by omega), h2, h3, ih h4⟩

theorem wf_write {m : Memory} {a : Nat} (b : Byte) (ha : a < Config.fbBytes) (h : wf m = true) :
    wf (write m a b) = true := by
  unfold write
  split
  · exact wf_erase a h
  · exact wf_place ha ‹_› h

/-- A producer's write keeps the canonical form. -/
theorem wf_produce {m : Memory} (a : Nat) (b : Byte) (h : wf m = true) : wf (produce m a b) = true := by
  unfold produce
  split
  · exact wf_write b ‹_› h
  · exact h

/-- Producers' writes, one after the other, keep the canonical form. -/
theorem wf_produceAll (cells : List Host.Cell) : ∀ {m : Memory}, wf m = true → wf (produceAll m cells) = true := by
  induction cells with
  | nil => exact id
  | cons c cs ih => exact fun h => ih (wf_produce _ _ h)

/-- Contents built from cells are in canonical form. -/
theorem wf_ofCells (cells : List Host.Cell) : wf (ofCells cells) = true := wf_produceAll cells rfl

theorem read_erase (m : Memory) (a k : Nat) : read (erase m a) k = if k = a then unlisted else read m k := by
  induction m with
  | nil => simp [erase, read]
  | cons c m ih =>
    simp only [erase] at ih ⊢
    simp only [List.filter_cons]
    by_cases hc : c.1 = a
    · simp only [hc, ne_eq, not_true_eq_false, decide_false, Bool.false_eq_true, ↓reduceIte]
      rw [ih]
      by_cases hk : k = a
      · simp [hk]
      · simp [read, hk, hc]
    · simp only [ne_eq, hc, not_false_eq_true, decide_true, ↓reduceIte, read]
      rw [ih]
      by_cases hk : k = c.1
      · simp [hk, hc]
      · simp [hk]

theorem read_place (m : Memory) (a : Nat) (b : Byte) (k : Nat) :
    read (place m a b) k = if k = a then b else read m k := by
  induction m with
  | nil => simp [place, read]
  | cons c m ih =>
    simp only [place]
    split
    · simp [read]
    · split
      · subst ‹a = _›
        simp only [read]
        split <;> rfl
      · simp only [read]
        rw [ih]
        by_cases hk : k = c.1
        · subst hk
          simp [show ¬ c.1 = a by omega]
        · simp [hk]

/-- A read after a write: the written byte at its address, the old byte everywhere else. -/
theorem read_write (m : Memory) (a : Nat) (b : Byte) (k : Nat) :
    read (write m a b) k = if k = a then b else read m k := by
  unfold write
  split
  · rw [read_erase, ‹b = _›]
  · exact read_place m a b k

/-- The memory after reset is in canonical form. -/
theorem wf_reset : wf State.reset.fb = true := rfl

/-- A read after a producer's write: one outside the buffer changes nothing. -/
theorem read_produce (m : Memory) (a : Nat) (b : Byte) (k : Nat) :
    read (produce m a b) k = if a < Config.fbBytes ∧ k = a then b else read m k := by
  unfold produce
  split
  · rw [read_write]; simp [*]
  · simp [*]

end Sys2Proof.Machine.Memory
end

