-- ==== Sys2Proof/Laws/Packing.lean ====
section
/-! SUPPORT. The bit lanes of packing: what setting one serial bit does to every serial bit. -/

namespace Sys2Proof.Machine

/-- Bit `7 - q mod 8` of the mask of position `p` is set exactly when the two positions have the same phase. -/
theorem serialMask_bit (p q : Nat) : (serialMask p).getLsbD (7 - q % 8) = decide (p % 8 = q % 8) := by
  have h : ∀ a < 8, ∀ b < 8, (0x80#8 >>> a).getLsbD (7 - b) = decide (a = b) := by decide
  exact h _ (Nat.mod_lt _ (by decide)) _ (Nat.mod_lt _ (by decide))

@[simp] theorem setSerialBit_length (out : List Byte) (p : Nat) : (setSerialBit out p).length = out.length := by
  simp [setSerialBit]

/-- Setting the bit at position `p`, inside the string, sets that serial bit and no other. -/
theorem serialBit_setSerialBit {out : List Byte} {p : Nat} (hp : p / 8 < out.length) (q : Nat) :
    serialBit (setSerialBit out p) q = (decide (p = q) || serialBit out q) := by
  unfold serialBit setSerialBit
  simp only [List.getD_eq_getElem?_getD, List.getElem?_modify]
  by_cases hb : p / 8 = q / 8
  · have hq : q / 8 < out.length := hb ▸ hp
    rw [hb]
    simp only [↓reduceIte, List.getElem?_eq_getElem hq, Option.map_eq_map, Option.map_some, Option.getD_some,
      BitVec.getLsbD_or, serialMask_bit]
    by_cases hm : p % 8 = q % 8
    · have : p = q := by omega
      simp [this]
    · have : p ≠ q := fun h => hm (by rw [h])
      simp [hm, this]
  · have : p ≠ q := fun h => hb (by rw [h])
    simp [hb, this]

end Sys2Proof.Machine
end

