-- ==== Sys2Proof/Laws/PerInstr.lean ====
section
/-! SUPPORT. Facts about every instruction as syntax, one lemma per constructor. -/

namespace Sys2Proof.Laws.Format

/-- The words of an instruction are in its row's format and of its row's length (30_encoding.md R80, R81, R86, R88, R90):
a host command is three bits beside its requester, a line-frame header is seven bytes, a trailer two, the clear frame one. -/
def Statement : Instr → Prop
  | .init r => encode (.init r) = .port r 1#3
  | .refresh r => encode (.refresh r) = .port r 2#3
  | .blank r => encode (.blank r) = .port r 3#3
  | .unblank r => encode (.unblank r) = .port r 4#3
  | .detach r => encode (.detach r) = .port r 5#3
  | .sendLine line => ∃ bytes, encode (.sendLine line) = .wire bytes ∧ bytes.length = 7
  | .encodeRow y => encode (.encodeRow y) = .row y
  | .trailer => ∃ bytes, encode .trailer = .wire bytes ∧ bytes.length = 2
  | .allClear => ∃ bytes, encode .allClear = .wire bytes ∧ bytes.length = 1

theorem init (r : Req) : Statement (.init r) := rfl
theorem refresh (r : Req) : Statement (.refresh r) := rfl
theorem blank (r : Req) : Statement (.blank r) := rfl
theorem unblank (r : Req) : Statement (.unblank r) := rfl
theorem detach (r : Req) : Statement (.detach r) := rfl
theorem sendLine (line : BitVec 16) : Statement (.sendLine line) := ⟨_, rfl, rfl⟩
theorem encodeRow (y : Nat) : Statement (.encodeRow y) := rfl
theorem trailer : Statement .trailer := ⟨_, rfl, rfl⟩
theorem allClear : Statement .allClear := ⟨_, rfl, rfl⟩

end Sys2Proof.Laws.Format
end

