-- ==== Sys2Proof/Tests/Slice0.lean ====
section
/-! SUPPORT. Tests of one step each, with results written out from spec/ (95_test_vectors.md and the encodings of
30_encoding.md), and for every statement with hypotheses a state that meets them. -/

namespace Sys2Proof.Tests

open Sys2Proof Sys2Proof.Machine

/-! ## Helpers -/

/-- The next state of an outcome, if there is one. -/
def nextOf : Host.Outcome State Fault Refusal → Option State
  | .next t => some t
  | _ => none

/-- The refusal of an outcome, if there is one. -/
def refusalOf : Host.Outcome State Fault Refusal → Option Refusal
  | .refused r => some r
  | _ => none

/-- The fault of an outcome, if there is one. -/
def faultOf : Host.Outcome State Fault Refusal → Option Fault
  | .fault f => some f
  | _ => none

/-- A field of the next state of an outcome. -/
def after {α : Type} (f : State → α) (o : Host.Outcome State Fault Refusal) : Option α := (nextOf o).map f

theorem nextOf_isSome {o : Host.Outcome State Fault Refusal} (h : (nextOf o).isSome = true) : ∃ t, o = .next t := by
  cases o with
  | next t => exact ⟨t, rfl⟩
  | fault f => cases h
  | refused r => cases h

theorem faultOf_some {o : Host.Outcome State Fault Refusal} {f : Fault} (h : faultOf o = some f) : o = .fault f := by
  cases o with
  | next t => cases h
  | fault g => cases h; rfl
  | refused r => cases h

theorem refusalOf_some {o : Host.Outcome State Fault Refusal} {r : Refusal} (h : refusalOf o = some r) :
    o = .refused r := by
  cases o with
  | next t => cases h
  | fault g => cases h
  | refused q => cases h; rfl

/-- A block after a successful INIT. -/
def up : State := { State.reset with pstate := .active, ctl := ⟨false, false, true, false⟩ }

/-- A block after DETACH. -/
def off : State := { State.reset with pstate := .off }

/-- The block in the middle of a refresh of requester 1. -/
def busy : State := { up with lock := .held 1, caller := 1, seq := ⟨.refresh, .encode, 0, 0⟩ }

/-- The block stuck inside the header call of line 0. -/
def stuck : State := { busy with inFlight := some (.tx (headerBytes 0#16)), seq := ⟨.refresh, .txHeader, 0, 399⟩ }

/-- The block in the middle of INIT. -/
def starting : State := { State.reset with pstate := .initializing, seq := ⟨.init, .initStep .allClear, 0, 0⟩ }

/-- What the panel needs: bytes 1 to 6 of a header are fixed but for the last one. -/
def hdrOf (b : Byte) : List Byte := [0x01#8, 0x00#8, 0x00#8, 0x00#8, 0x00#8, 0x00#8, b]

/-! ## Well-formedness: each check refuses an ill-formed term and admits the last good one -/

theorem test_wf_line_1024_refused : (Instr.sendLine 1024#16).wf = false := by decide
theorem test_wf_line_1023_admitted : (Instr.sendLine 1023#16).wf = true := by decide
theorem test_wf_row_240_refused : (Instr.encodeRow 240).wf = false := by decide
theorem test_wf_row_239_admitted : (Instr.encodeRow 239).wf = true := by decide

/-! ## Decoding: words written out bit by bit from 30_encoding.md R81 to R90 and V23 -/

theorem test_decode_init : decode (.port 3 0b001#3) = .ok (.init 3) := by decide
theorem test_decode_refresh : decode (.port 3 0b010#3) = .ok (.refresh 3) := by decide
theorem test_decode_blank : decode (.port 3 0b011#3) = .ok (.blank 3) := by decide
theorem test_decode_unblank : decode (.port 3 0b100#3) = .ok (.unblank 3) := by decide
theorem test_decode_detach : decode (.port 3 0b101#3) = .ok (.detach 3) := by decide
theorem test_decode_reserved :
    decode (.port 3 0b000#3) = .error (.reservedOpcode 0#3) ∧ decode (.port 3 0b110#3) = .error (.reservedOpcode 6#3) ∧
    decode (.port 3 0b111#3) = .error (.reservedOpcode 7#3) := by decide
theorem test_decode_line_128 :
    decode (.wire [0b00000001#8, 0#8, 0#8, 0#8, 0#8, 0b00000000#8, 0b10000000#8]) = .ok (.sendLine 128#16) := by decide
theorem test_decode_line_300 :
    decode (.wire [0x01#8, 0#8, 0#8, 0#8, 0#8, 0x01#8, 0x2C#8]) = .ok (.sendLine 300#16) := by decide
theorem test_decode_row : decode (.row 239) = .ok (.encodeRow 239) := by decide
theorem test_decode_trailer : decode (.wire [0b00000000#8, 0b00000000#8]) = .ok .trailer := by decide
theorem test_decode_clear : decode (.wire [0b00001000#8]) = .ok .allClear := by decide
theorem test_decode_rejects_by_name :
    decode (.wire [0x00#8, 0#8, 0#8, 0#8, 0#8, 0#8, 0#8]) = .error (.modeByte 0#8) ∧
    decode (.wire [0x01#8, 0#8, 1#8, 0#8, 0#8, 0#8, 0#8]) = .error .reservedBytes ∧
    decode (.wire [0x01#8, 0#8, 0#8, 0#8, 0#8, 4#8, 0#8]) = .error (.addressHigh 4#8) ∧
    decode (.wire [0x09#8]) = .error (.commandByte 9#8) ∧ decode (.wire [0#8, 1#8]) = .error .trailerBytes ∧
    decode (.wire [0#8, 0#8, 0#8]) = .error (.frameLength 3) ∧ decode (.row 240) = .error (.rowIndex 240) := by decide

/-- Headers of the formula alone (V23, last paragraph): the mask drops bits 15 to 10. -/
theorem test_encode_line_1023 :
    encode (.sendLine 1023#16) = .wire [0x01#8, 0#8, 0#8, 0#8, 0#8, 0x03#8, 0xFF#8] ∧
    headerBytes 65535#16 = [0x01#8, 0#8, 0#8, 0#8, 0#8, 0x03#8, 0xFF#8] := by decide

/-- The rows of opcode_table.json, at the number of whole bytes each has. -/
theorem test_table_words :
    decodeTableWord 8 1 = some (.init 0) ∧ decodeTableWord 8 2 = some (.refresh 0) ∧
    decodeTableWord 8 3 = some (.blank 0) ∧ decodeTableWord 8 4 = some (.unblank 0) ∧
    decodeTableWord 8 5 = some (.detach 0) ∧ decodeTableWord 56 0x010000000000EF = some (.sendLine 239#16) ∧
    decodeTableWord 16 0 = some .trailer ∧ decodeTableWord 8 8 = some .allClear ∧
    decodeTableWord 8 0 = some (.encodeRow 0) := by decide

/-! ## The pure functions -/

/-- V1. -/
theorem test_chan :
    chan 0x007F0000#32 0 = true ∧ chan 0x00800000#32 0 = false ∧ chan 0x0000FF00#32 1 = true ∧
    chan 0x000000FF#32 2 = true ∧ chan 0xFEFEFEFE#32 0 = false ∧ chan 0x01000000#32 0 = false := by decide

/-- V9. -/
theorem test_packRow_counting :
    packRow [0x0#32, 0x1#32, 0x100#32, 0x101#32, 0x10000#32, 0x10001#32, 0x10100#32, 0x10101#32] =
      [0x05#8, 0x39#8, 0x77#8, 0x00#8, 0x00#8] := by decide

/-- V12 and V15: the two phases that cross a byte. -/
theorem test_packRow_crossing :
    packRow [0#32, 0#32, 0x10101#32, 0#32, 0#32, 0#32, 0#32, 0#32] = [0x03#8, 0x80#8, 0#8, 0#8, 0#8] ∧
    packRow [0#32, 0#32, 0#32, 0#32, 0#32, 0x10101#32, 0#32, 0#32] = [0x00#8, 0x01#8, 0xC0#8, 0#8, 0#8] := by decide

/-- V20, the rows of 3 and 5 pixels. -/
theorem test_packRow_padding :
    packRow [0x10000#32, 0x100#32, 0x1#32] = [0x88#8, 0x80#8, 0#8, 0#8] ∧
    packRow (List.replicate 5 0x00FFFFFF#32) = [0xFF#8, 0xFE#8, 0#8, 0#8] := by decide

/-- V3: a row of red. -/
theorem test_packRow_red :
    packRow (List.replicate 400 0x00FF0000#32) =
      (List.replicate 50 [0x92#8, 0x49#8, 0x24#8]).flatten ++ [0x00#8, 0x00#8] := by decide +kernel

/-- V24: addresses, and the bytes of a red pixel. -/
theorem test_addresses :
    pixelAddr 0 399 = 1596 ∧ pixelAddr 1 0 = 1600 ∧ pixelAddr 239 399 = 383996 ∧
    (Memory.ofCells [(4, 0x00#8), (5, 0x00#8), (6, 0xFF#8), (7, 0x00#8)]).pixel 4 = 0x00FF0000#32 := by decide

/-! ## One step of each instruction -/

/-- V26, first row: the events and the lines. -/
theorem test_init :
    after (fun t => (t.trace, t.pstate, t.ctl)) (exec (.init 3) State.reset) =
      some ([.cmd 3 1#3, .set .comInversionModeSelect false true, .set .displayEnable false true, .wait .settle,
        .set .displayEnable true true, .set .chipSelect true true, .tx [0x08#8] .ok, .set .chipSelect false true,
        .wait .clear, .ret 3 .ok], .active, ⟨false, false, true, false⟩) := by decide +kernel

/-- P4: the failing display-enable line. -/
theorem test_init_fails :
    after (fun t => (t.trace, t.pstate, t.ctl))
      (exec (.init 3) { State.reset with ctlAnswers := ⟨[.ok, .fail], .ok⟩ }) =
      some ([.cmd 3 1#3, .set .comInversionModeSelect false true, .set .displayEnable false false,
        .ret 3 .controlLineFailure], .uninitialized, ⟨false, false, false, false⟩) := by decide +kernel

/-- V27: REFRESH without a panel. -/
theorem test_refresh_uninitialized :
    after (fun t => (t.trace, t.pstate, t.lock)) (exec (.refresh 3) State.reset) =
      some ([.cmd 3 2#3, .acq 3, .rel 3, .ret 3 .invalidArgument], .uninitialized, .free) := by decide +kernel

/-- V28, last row: FailFast, no buffer for line 0: 400 reads and nothing else. -/
theorem test_refresh_failfast :
    after (fun t => (t.trace.length, t.trace.take 3, t.trace.drop 402, t.lock))
      (exec (.refresh 3) { up with policy := .failFast, grants := ⟨[false], true⟩ }) =
      some (404, [.cmd 3 2#3, .acq 3, .rd 0 0#32], [.rel 3, .ret 3 .resourceExhausted], .free) := by decide +kernel

/-- V27. -/
theorem test_blank :
    after (fun t => (t.trace, t.pstate, t.ctl.displayEnable)) (exec (.blank 3) up) =
      some ([.cmd 3 3#3, .set .displayEnable false true, .ret 3 .ok], .blanked, false) := by decide +kernel

/-- V27: the answer of the control line is ignored. -/
theorem test_unblank :
    after (fun t => (t.trace, t.pstate, t.ctl.displayEnable))
      (exec (.unblank 3) { up with pstate := .blanked, ctl := ⟨false, false, false, false⟩, ctlAnswers := ⟨[.fail], .ok⟩ }) =
      some ([.cmd 3 4#3, .set .displayEnable true false, .ret 3 .ok], .active, false) := by decide +kernel

/-- V27. -/
theorem test_detach :
    after (fun t => (t.trace, t.pstate, t.lock, t.ctl.displayEnable)) (exec (.detach 3) up) =
      some ([.cmd 3 5#3, .acq 3, .set .displayEnable false true, .set .chipSelect false true, .rel 3, .ret 3 .ok],
        .off, .free, false) := by decide +kernel

/-- V25 b. -/
theorem test_sendLine :
    after (fun t => (t.trace, t.result, t.hdr)) (exec (.sendLine 239#16) up) =
      some ([.set .chipSelect true true, .tx (hdrOf 0xEF#8) .ok, .tx (List.replicate 152 0#8) .ok,
        .set .chipSelect false true], some .ok, hdrOf 0xEF#8) := by decide +kernel

/-- V25 g: the header call fails; no register shows it (60_exceptions.md R190). -/
theorem test_sendLine_header_fails :
    after (fun t => (t.trace, t.result, t.status)) (exec (.sendLine 7#16) { up with txAnswers := ⟨[.fail 3], .ok⟩ }) =
      some ([.set .chipSelect true true, .tx (hdrOf 0x07#8) (.fail 3), .set .chipSelect false true],
        some .transportFailure, .ok) := by decide +kernel

/-- P3: pixel (0,0) red, the rest black. -/
theorem test_encodeRow :
    after (fun t => (t.lb, t.trace.length)) (exec (.encodeRow 0) { up with fb := [(2, 0x01#8)] }) =
      some (0x80#8 :: List.replicate 151 0x00#8, 400) := by decide +kernel

/-- R86. -/
theorem test_trailer :
    after State.lb (exec .trailer { up with lb := List.replicate 152 0xFF#8 }) =
      some (List.replicate 150 0xFF#8 ++ [0x00#8, 0x00#8]) := by decide +kernel

/-- R152 and the clear frame of R88. -/
theorem test_allClear :
    after (fun t => (t.trace, t.result, t.ctl)) (exec .allClear up) =
      some ([.tx [0x08#8] .ok], some .ok, ⟨false, false, true, false⟩) := by decide +kernel

/-! ## A step fetches and runs a placed word -/

theorem test_step_init :
    after (fun t => (t.pstate, t.port)) (step (State.reset.withFetchWord 8 1)) = some (.active, []) := by decide +kernel

theorem test_step_sendLine :
    after (fun t => (t.trace, t.result, t.ordered)) (step (State.reset.withFetchWord 56 0x010000000000EF)) =
      some ([.set .chipSelect true true, .tx (hdrOf 0xEF#8) .ok, .tx (List.replicate 152 0#8) .ok,
        .set .chipSelect false true], some .ok, none) := by decide +kernel

/-- A line address the panel does not have, handed over by its table word (V25 d). -/
theorem test_step_sendLine_300 :
    after (fun t => (t.trace, t.result)) (step (State.reset.withFetchWord 56 0x0100000000012C)) =
      some ([], some .invalidArgument) := by decide +kernel

/-- P1, from step 6 of INIT on. -/
theorem test_step_resumes_init :
    after (fun t => (t.trace, t.pstate)) (step starting) =
      some ([.tx [0x08#8] .ok, .set .chipSelect false true, .wait .clear, .ret 0 .ok], .active) := by decide +kernel

/-- The last line of a refresh, from its deassert on (43_refresh_coordinator.md R170). -/
theorem test_step_resumes_refresh :
    after (fun t => (t.trace, t.lock, t.seq))
      (step { busy with seq := ⟨.refresh, .csDeassert, 239, 399⟩, result := some .ok }) =
      some ([.set .chipSelect false true, .wait .interLine, .rel 1, .ret 1 .ok], .free, ⟨.idle, .gap, 239, 399⟩) := by
  decide +kernel

/-- A wait that never ends holds INIT at step 3 (10_state.md R35). -/
theorem test_init_stays_in_wait :
    after (fun t => (t.inFlight, t.pstate, t.seq.step))
      (exec (.init 3) { State.reset with waitAnswers := ⟨[false], true⟩ }) =
      some (some (.wait .settle), .initializing, .initStep .settle) := by decide +kernel

/-- P7 (i): the teardown is granted, and the refresh behind it is answered by a later step. -/
theorem test_step_behind_teardown :
    after (fun t => (t.trace, t.waitq)) (step { off with waitq := [(2, .refresh)] }) =
      some ([.acq 2, .rel 2, .ret 2 .invalidArgument], []) := by decide +kernel

/-! ## Witnesses: for every statement with hypotheses, a state and operands that meet them -/

theorem witness_DecodeOfEncodeIsTheInstruction :
    (Instr.sendLine 1023#16).wf = true ∧ (Instr.encodeRow 239).wf = true := by decide

theorem witness_EncodeOfDecodeIsTheWords :
    decode (.wire [0x01#8, 0#8, 0#8, 0#8, 0#8, 3#8, 0xFF#8]) = .ok (.sendLine 1023#16) := by decide

theorem witness_TableHeadersDecode : 1023 < 1024 ∧ decodeTableWord 56 (0x01000000000000 + 1023) = some (.sendLine 1023#16) := by
  decide

/-- A block with a command of requester 3 at its port. -/
def asked (s : State) (op : BitVec 3) : State := { s with port := [some (.cmd 3 op), none] }

/-- Producers' bytes at both sides of the buffer's end. -/
def edge : List Host.Cell := [(383999, 0xAA#8), (384000, 0xBB#8)]

/-- A state inside whose next operation those bytes arrive before the first event. -/
def produced (s : State) : State := { s with during := [edge.map fun w => .wr w.1 w.2] }

theorem witness_ReservedOpcodesAreAnswered :
    (produced (asked up 7#3)).during.headD [] = edge.map (fun w => .wr w.1 w.2) ∧
    (asked up 7#3).during.headD [] = ([] : List Host.Cell).map (fun w => .wr w.1 w.2) ∧
    ((7#3 : BitVec 3) = 0#3 ∨ (7#3 : BitVec 3) = 6#3 ∨ (7#3 : BitVec 3) = 7#3) ∧ (asked up 7#3).inFlight = none ∧
    (asked up 7#3).ordered = none ∧
    (asked up 7#3).seq.unit = .idle ∧ (asked up 7#3).pstate ≠ .initializing ∧
    (asked up 7#3).port = some (.cmd 3 7#3) :: [none] := by decide

theorem witness_StepRunsTheCommandAtThePort :
    (asked up 3#3).inFlight = none ∧ (asked up 3#3).ordered = none ∧ (asked up 3#3).seq.unit = .idle ∧
    (asked up 3#3).port = some (.cmd 3 3#3) :: [none] ∧ decode (.port 3 3#3) = .ok (.blank 3) := by decide

theorem witness_StepRunsTheInstructionHandedOver :
    (let s : State := { up with ordered := some (.wire clearFrame) }
     s.inFlight = none ∧ s.ordered = some (.wire clearFrame) ∧ decode (.wire clearFrame) = .ok .allClear) ∧
    (let s : State := { up with ordered := some (.row 240) }
     s.inFlight = none ∧ s.ordered = some (.row 240) ∧ decode (.row 240) = .error (.rowIndex 240)) := by decide

/-- In each position of line 239, the registers and locals fit it. -/
theorem witness_UnitsGoOnFromEveryPosition_refresh :
    busy.Quiet ∧ busy.inFlight = none ∧ busy.ordered = none ∧ busy.seq.unit = .refresh ∧ busy.LinesAnswerOk ∧
    (∀ n, busy.txAnswers.get n = .ok) ∧ (∀ n, busy.grants.get n = true) ∧
    ({ busy with seq := ⟨.refresh, .encode, 239, 0⟩ } : State).LineFits ∧
    ({ busy with seq := ⟨.refresh, .encode, 239, 2⟩, px := [0#32, 0#32] } : State).LineFits ∧
    ({ busy with seq := ⟨.refresh, .csAssert, 239, 399⟩, hdr := hdrOf 0xEF#8 } : State).LineFits ∧
    ({ busy with seq := ⟨.refresh, .txHeader, 239, 399⟩, hdr := hdrOf 0xEF#8 } : State).LineFits ∧
    ({ busy with seq := ⟨.refresh, .txPayload, 239, 399⟩ } : State).LineFits ∧
    ({ busy with seq := ⟨.refresh, .csDeassert, 239, 399⟩, result := some .ok } : State).LineFits ∧
    ({ busy with seq := ⟨.refresh, .gap, 239, 399⟩ } : State).LineFits := by
  have hlb : State.reset.lb = rowPayload [] 239 := by decide +kernel
  exact ⟨rfl, rfl, rfl, rfl, ⟨fun _ => rfl, fun _ => rfl, fun _ => rfl⟩, fun _ => rfl, fun _ => rfl,
    rfl, show _ = List.take 2 _ by decide +kernel, ⟨show _ = headerBytes _ by decide, hlb⟩,
    ⟨show _ = headerBytes _ by decide, hlb⟩, hlb, rfl, trivial⟩

theorem witness_UnitsGoOnFromEveryPosition_init :
    starting.Quiet ∧ starting.inFlight = none ∧ starting.ordered = none ∧ starting.seq.unit = .init ∧
    starting.seq.step = .initStep .allClear ∧ starting.LinesAnswerOk ∧ starting.txAnswers.get 0 = .ok :=
  ⟨rfl, rfl, rfl, rfl, rfl, ⟨fun _ => rfl, fun _ => rfl, fun _ => rfl⟩, rfl⟩

theorem witness_UnitsGoOnFromEveryPosition_detach :
    let s : State := { busy with seq := ⟨.detach, .detachStep .displayLow, 0, 0⟩ }
    s.Quiet ∧ s.inFlight = none ∧ s.ordered = none ∧ s.seq.unit = .detach ∧
      s.seq.step = .detachStep .displayLow ∧ s.LinesAnswerOk :=
  ⟨rfl, rfl, rfl, rfl, rfl, ⟨fun _ => rfl, fun _ => rfl, fun _ => rfl⟩⟩

theorem witness_PackRowPlacesEachChannelBit :
    399 < (List.replicate 400 0#32).length ∧ 2 < 3 ∧ 3 * (List.replicate 400 0#32).length ≤ 1200 := by
  rw [List.length_replicate]; decide

/-- One white pixel and its bytes (V20). -/
theorem witness_UnpackRowInvertsPackRow :
    [0xE0#8, 0#8, 0#8].length = (3 * [0x00FFFFFF#32].length + 7) / 8 + 2 ∧
    (∀ p, 3 * [0x00FFFFFF#32].length ≤ p → serialBit [0xE0#8, 0#8, 0#8] p = false) ∧
    ([0x00FFFFFF#32].map fun w => (chan w 0, chan w 1, chan w 2)) =
      unpackRow [0x00FFFFFF#32].length [0xE0#8, 0#8, 0#8] := by
  refine ⟨by decide, fun p hp => ?_, by decide⟩
  have hp : 3 ≤ p := hp
  by_cases h : p < 24
  · have : ∀ q < 24, 3 ≤ q → serialBit [0xE0#8, 0#8, 0#8] q = false := by decide
    exact this p h hp
  · have h3 : ¬ p / 8 < 3 := by omega
    simp [serialBit, List.getD_eq_getElem?_getD, List.getElem?_eq_none (show [0xE0#8, 0#8, 0#8].length ≤ p / 8 by
      simp; omega)]

theorem witness_EncodeRowPacksTheRow :
    239 < 240 ∧ up.Quiet ∧ ∀ n, n < 400 → up.rdAnswers.get n = true := ⟨by decide, rfl, fun _ _ => rfl⟩

theorem witness_EncodeRowOutsideThePanelFaults : 240 ≤ 240 ∧ up.Quiet := ⟨by decide, rfl⟩

theorem witness_TearingFollowsTheOrderOfEvents :
    239 < 240 ∧ 399 < 400 ∧ 383999 < 384000 ∧
    (∀ n, n < 400 → ({ up with during := List.replicate 399 [] ++ [[.wr 383999 1#8]] } : State).rdAnswers.get n = true) ∧
    ({ up with during := List.replicate 399 [] ++ [[.wr 383999 1#8]] } : State).during =
      List.replicate 399 [] ++ [[.wr 383999 1#8]] := ⟨by decide, by decide, by decide, fun _ _ => rfl, rfl⟩

/-- The low byte of pixel (239,399) is 0xFE in one buffer and 0x00 in the other. -/
theorem witness_OnlyThreeBitsOfAPixelMatter :
    239 < 240 ∧ up.Quiet ∧ (∀ n, n < 400 → up.rdAnswers.get n = true) ∧ [(383996, 0xFE#8)] ≠ up.fb ∧
    (∀ x, x < 400 → ∀ k, k < 3 →
      (Memory.pixel [(383996, 0xFE#8)] (1600 * 239 + 4 * x)).getLsbD (8 * k) =
        (up.fb.pixel (1600 * 239 + 4 * x)).getLsbD (8 * k)) :=
  ⟨by decide, rfl, fun _ _ => rfl, by decide, by decide +kernel⟩

theorem witness_ProducerWriteIsSeenByLaterReads :
    (383999 < 384000 ∧ ({ up with port := [some (.wr 383999 1#8)] } : State).port = some (.wr 383999 1#8) :: []) ∧
    (384000 ≤ 384000 ∧ ({ up with port := [some (.wr 384000 1#8)] } : State).port = some (.wr 384000 1#8) :: []) ∧
    up.inFlight = none ∧ up.ordered = none ∧ up.seq.unit = .idle := by decide

theorem witness_NoInstructionWritesTheFrameBuffer :
    ∃ t, (({ up with during := [[.cmd 2 4#3]] } : State).during.all fun slot => slot.all Input.sparesBuffer) = true ∧
      exec (.sendLine 0#16) { up with during := [[.cmd 2 4#3]] } = .next t := by
  obtain ⟨t, h⟩ := nextOf_isSome (show (nextOf (exec (.sendLine 0#16)
    { up with during := [[.cmd 2 4#3]] })).isSome = true by decide +kernel)
  exact ⟨t, rfl, h⟩

theorem witness_HeaderCarriesTheLineAddress : (239#16).toNat < 240 := by decide

theorem witness_SendLineRejectsLinesOutOfRange : 240 ≤ (240#16).toNat ∧ 240 ≤ (65535#16).toNat := by decide

theorem witness_SendLineWithoutBufferSendsNothing :
    (239#16).toNat < 240 ∧ ({ up with grants := ⟨[false], true⟩ } : State).grants.get 0 = false := by decide

/-- V25 i: both chip-select calls fail. -/
theorem witness_SendLineFramesOneLine :
    let s : State := { up with ctlAnswers := ⟨[.fail, .fail], .ok⟩ }
    s.Quiet ∧ (239#16).toNat < 240 ∧ s.grants.get 0 = true ∧ s.txAnswers.get 0 = .ok ∧ s.txAnswers.get 1 = .ok ∧
      s.ctlAnswers.get 0 ≠ .never ∧ s.ctlAnswers.get 1 ≠ .never := by decide

theorem witness_SendLineDeassertsAfterTransportFailure :
    up.Quiet ∧ (0#16).toNat < 240 ∧ up.grants.get 0 = true ∧ up.ctlAnswers.get 0 ≠ .never ∧
    up.ctlAnswers.get 1 ≠ .never ∧ ({ up with txAnswers := ⟨[.fail 0], .ok⟩ } : State).txAnswers.get 0 = .fail 0 ∧
    ({ up with txAnswers := ⟨[.ok, .fail 152], .ok⟩ } : State).txAnswers.get 0 = .ok ∧
    ({ up with txAnswers := ⟨[.ok, .fail 152], .ok⟩ } : State).txAnswers.get 1 = .fail 152 := by decide

/-- The four results of SEND_LINE, each reached. -/
theorem witness_SendLineByteCountLaw :
    up.Quiet ∧ up.lb.length = 152 ∧ up.inFlight = none ∧
    after (fun t => (t.result, t.inFlight)) (exec (.sendLine 239#16) up) = some (some .ok, none) ∧
    after (fun t => (t.result, t.inFlight)) (exec (.sendLine 240#16) up) = some (some .invalidArgument, none) ∧
    after (fun t => (t.result, t.inFlight)) (exec (.sendLine 0#16) { up with grants := ⟨[false], true⟩ }) =
      some (some .resourceExhausted, none) ∧
    after (fun t => (t.result, t.inFlight)) (exec (.sendLine 0#16) { up with txAnswers := ⟨[.ok, .fail 9], .ok⟩ }) =
      some (some .transportFailure, none) := by decide +kernel

theorem witness_LineFrameBitByBit : (List.replicate 400 0x00FF0000#32).length = 400 :=
  List.length_replicate

theorem witness_BlankFallsInsideALine :
    let s : State := { up with during := [[], [.cmd 2 0b011#3]] }
    s.during = [[], [.cmd 2 0b011#3]] ∧ (239#16).toNat < 240 ∧ s.pstate = .active ∧ s.seq.unit ≠ .init ∧
      s.grants.get 0 = true ∧ (∀ n, n < 2 → s.txAnswers.get n = .ok) ∧ (∀ n, n < 3 → s.ctlAnswers.get n = .ok) :=
  ⟨rfl, by decide, rfl, by decide, rfl, fun _ _ => rfl, fun _ _ => rfl⟩

theorem witness_SendLineStaysInACallThatNeverReturns :
    up.Quiet ∧ (239#16).toNat < 240 ∧ up.grants.get 0 = true ∧
    ({ up with ctlAnswers := ⟨[.never], .ok⟩ } : State).ctlAnswers.get 0 = .never ∧
    (up.ctlAnswers.get 0 ≠ .never ∧ ({ up with txAnswers := ⟨[.never], .ok⟩ } : State).txAnswers.get 0 = .never) ∧
    (let s : State := { up with txAnswers := ⟨[.ok, .never], .ok⟩ }
     s.ctlAnswers.get 0 ≠ .never ∧ s.txAnswers.get 0 = .ok ∧ s.txAnswers.get 1 = .never) ∧
    (let s : State := { up with txAnswers := ⟨[.fail 7], .ok⟩, ctlAnswers := ⟨[.fail, .never], .ok⟩ }
     s.ctlAnswers.get 0 ≠ .never ∧ s.txAnswers.get 0 = .fail 7 ∧ s.ctlAnswers.get 1 = .never) ∧
    (let s : State := { up with txAnswers := ⟨[.ok, .fail 3], .ok⟩, ctlAnswers := ⟨[.ok, .never], .ok⟩ }
     s.ctlAnswers.get 0 ≠ .never ∧ s.txAnswers.get 0 = .ok ∧ s.txAnswers.get 1 ≠ .never ∧
       s.ctlAnswers.get 1 = .never) := by decide

/-- The environment in which the frame-buffer read after `k` others never returns. -/
def readHangs (k : Nat) : State := { up with rdAnswers := ⟨List.replicate k true ++ [false], true⟩ }

theorem script_get_of_lt {α : Type} {k n : Nat} {a r : α} {l : List α} (h : n < k) :
    (⟨List.replicate k a ++ l, r⟩ : Script α).get n = a := by
  unfold Script.get
  rw [List.getD_eq_getElem?_getD, List.getElem?_append_left (by rw [List.length_replicate]; exact h),
    List.getElem?_replicate, if_pos h]
  rfl

theorem witness_CallsThatNeverReturnHoldTheBlock_read :
    239 < 240 ∧ (readHangs 399).Quiet ∧ (∀ n, n < (399 : Fin 400).val → (readHangs 399).rdAnswers.get n = true) ∧
    (readHangs 399).rdAnswers.get (399 : Fin 400) = false :=
  ⟨by decide, rfl, fun _ h => script_get_of_lt h, by decide +kernel⟩

theorem witness_CallsThatNeverReturnHoldTheBlock_calls :
    (let s : State := { up with txAnswers := ⟨[.never], .ok⟩ }
     s.Quiet ∧ s.txAnswers.get 0 = .never) ∧
    (let s : State := { up with ctlAnswers := ⟨[.never], .ok⟩ }
     (s.pstate = .active ∨ s.pstate = .blanked) ∧ s.seq.unit ≠ .init ∧ s.ctlAnswers.get 0 = .never) ∧
    (let s : State := { State.reset with waitAnswers := ⟨[false], true⟩ }
     s.Quiet ∧ s.pstate = .uninitialized ∧ s.seq.unit = .idle ∧ (∀ n, n < 2 → s.ctlAnswers.get n = .ok) ∧
       s.waitAnswers.get 0 = false) := by decide

theorem witness_CallsThatNeverReturnHoldTheBlock_gap :
    let s : State := { up with waitAnswers := ⟨[false], true⟩ }
    s.Quiet ∧ (s.pstate = .active ∨ s.pstate = .blanked) ∧ s.seq.unit = .idle ∧ s.lock = .free ∧ s.waitq = [] ∧
      (∀ n, s.ctlAnswers.get n = .ok) ∧ (∀ n, s.txAnswers.get n = .ok) ∧ (∀ n, s.rdAnswers.get n = true) ∧
      (∀ n, s.grants.get n = true) ∧ s.waitAnswers.get 0 = false :=
  ⟨rfl, .inl rfl, rfl, rfl, rfl, fun _ => rfl, fun _ => rfl, fun _ => rfl, fun _ => rfl, rfl⟩

theorem witness_ObserverFindsOneFramePerLine : (frames (linesEvents [] 1)).length = 1 := by decide +kernel

theorem witness_InitBringsTheDisplayUp :
    State.reset.Quiet ∧ State.reset.pstate = .uninitialized ∧ State.reset.seq.unit = .idle ∧
    (∀ n, n < 5 → State.reset.ctlAnswers.get n = .ok) ∧ State.reset.txAnswers.get 0 = .ok ∧
    (∀ n, n < 2 → State.reset.waitAnswers.get n = true) :=
  ⟨rfl, rfl, rfl, fun _ _ => rfl, rfl, fun _ _ => rfl⟩

/-- The environment in which the control-line call number `n` of an INIT fails, and the transport call answers `a`. -/
def failing (n : Nat) (a : TxAnswer) : State :=
  { State.reset with ctlAnswers := ⟨List.replicate n .ok ++ [.fail], .ok⟩, txAnswers := ⟨[a], .ok⟩ }

theorem witness_InitFailsAtTheFirstFailingStep :
    (∀ n, n < 5 → (failing n .ok).Quiet ∧ (failing n .ok).pstate = .uninitialized ∧
      (failing n .ok).seq.unit = .idle ∧ (failing n .ok).waitAnswers.get 0 = true) ∧
    (failing 0 .ok).ctlAnswers.get 0 = .fail ∧
    ((failing 1 .ok).ctlAnswers.get 0 = .ok ∧ (failing 1 .ok).ctlAnswers.get 1 = .fail) ∧
    ((∀ n, n < 2 → (failing 2 .ok).ctlAnswers.get n = .ok) ∧ (failing 2 .ok).ctlAnswers.get 2 = .fail) ∧
    ((∀ n, n < 3 → (failing 3 .ok).ctlAnswers.get n = .ok) ∧ (failing 3 .ok).ctlAnswers.get 3 = .fail ∧
      (failing 3 .ok).ctlAnswers.get 4 ≠ .never) ∧
    ((∀ n, n < 4 → (failing 9 (.fail 1)).ctlAnswers.get n = .ok) ∧ (failing 9 (.fail 1)).txAnswers.get 0 = .fail 1 ∧
      (failing 9 (.fail 1)).ctlAnswers.get 4 ≠ .never) ∧
    ((∀ n, n < 4 → (failing 4 .ok).ctlAnswers.get n = .ok) ∧ (failing 4 .ok).txAnswers.get 0 = .ok ∧
      (failing 4 .ok).ctlAnswers.get 4 = .fail) := by decide

theorem witness_InitOutsideUninitializedIsTurnedAway :
    up.pstate = .active ∧ ({ up with pstate := .blanked } : State).pstate = .blanked ∧ off.pstate = .off ∧
    up.seq.unit ≠ .init ∧ off.seq.unit ≠ .init ∧ up.during.headD [] = [] ∧
    ({ up with during := [[], [.wr 0 1#8]] } : State).during.headD [] = [] := by decide

theorem witness_CommandDuringInitIsRefused :
    (starting.seq.unit = .init ∨ starting.pstate = .initializing) ∧
    (let s : State := { State.reset with during := [[.cmd 2 0b111#3]] }
     s.pstate = .uninitialized ∧ s.seq.unit = .idle ∧ s.during = [.cmd 2 0b111#3] :: []) := by decide

theorem witness_InitMeetingAnOperationIsRefused :
    (let s : State := { State.reset with seq := ⟨.detach, .start, 0, 0⟩, lock := .held 1 }
     s.pstate = .uninitialized ∧ (s.seq.unit = .refresh ∨ s.seq.unit = .detach)) ∧
    (let s : State := { State.reset with during := [[], [.cmd 2 0b001#3]] }
     s.pstate = .uninitialized ∧ s.seq.unit = .idle ∧ s.lock = .free ∧ s.waitq = [] ∧
       s.during = [] :: [.cmd 2 0b001#3] :: [] ∧
       refusalOf (exec (.refresh 3) s) = some .initDuringOperation) ∧
    (let s : State := { State.reset with during := [[.cmd 2 0b001#3, .policy .failFast], [], [.wr 0 1#8]] }
     s.inFlight = none ∧ s.ordered = none ∧ s.pstate = .uninitialized ∧ s.seq.unit = .idle ∧
       s.during = (.cmd 2 0b001#3 :: [.policy .failFast]) :: [[], [.wr 0 1#8]] ∧
       after (fun t => (t.trace, t.waitq, t.port)) (exec (.refresh 3) s) =
         some ([.cmd 3 2#3], [(3, .refresh)], [some (.cmd 2 1#3), some (.policy .failFast)])) := by decide +kernel

theorem witness_BlankLowersDisplayEnable :
    (∀ p, p = .active ∨ p = .blanked →
      let s : State := { up with pstate := p }
      (s.pstate = .active ∨ s.pstate = .blanked) ∧ s.seq.unit ≠ .init ∧ s.ctlAnswers.get 0 ≠ .never) ∧
    ({ up with ctlAnswers := ⟨[.fail], .ok⟩ } : State).ctlAnswers.get 0 ≠ .never :=
  ⟨fun _ h => ⟨h, nofun, nofun⟩, by decide⟩

theorem witness_UnblankRaisesDisplayEnable :
    (∀ p, p = .active ∨ p = .blanked →
      let s : State := { up with pstate := p }
      (s.pstate = .active ∨ s.pstate = .blanked) ∧ s.seq.unit ≠ .init ∧ s.ctlAnswers.get 0 ≠ .never) ∧
    ({ up with ctlAnswers := ⟨[.fail], .ok⟩ } : State).ctlAnswers.get 0 ≠ .never :=
  ⟨fun _ h => ⟨h, nofun, nofun⟩, by decide⟩

theorem witness_BlankingWithoutAPanelIsTurnedAway :
    (State.reset.pstate = .uninitialized ∨ State.reset.pstate = .off) ∧ (off.pstate = .uninitialized ∨ off.pstate = .off) ∧
    State.reset.seq.unit ≠ .init ∧ off.seq.unit ≠ .init := by decide

theorem witness_DetachTurnsTheDisplayOff :
    let s : State := { up with ctlAnswers := ⟨[.fail], .ok⟩ }
    s.Quiet ∧ s.pstate ≠ .off ∧ s.pstate ≠ .initializing ∧ s.seq.unit = .idle ∧ s.lock = .free ∧ s.waitq = [] ∧
      s.ctlAnswers.get 0 ≠ .never ∧ s.ctlAnswers.get 1 ≠ .never := by decide

theorem witness_DetachWhenOffIsTurnedAway :
    (produced off).pstate = .off ∧ (produced off).seq.unit ≠ .init ∧
    (produced off).during.headD [] = edge.map (fun w => .wr w.1 w.2) ∧
    after (fun t => (t.trace, t.fb)) (exec (.detach 3) (produced off)) =
      some ([.cmd 3 5#3, .wr 383999 0xAA#8, .ret 3 .invalidArgument], [(383999, 0xAA#8)]) := by decide +kernel

theorem witness_AllClearSendsOneByte :
    up.Quiet ∧ up.txAnswers.get 0 = .ok ∧ ({ up with txAnswers := ⟨[.fail 0], .ok⟩ } : State).txAnswers.get 0 = .fail 0 := by
  decide

theorem up_linesAnswerOk : up.LinesAnswerOk := ⟨fun _ => rfl, fun _ => rfl, fun _ => rfl⟩

theorem up_returns : up.Returns := ⟨fun _ => nofun, fun _ => nofun, fun _ => rfl, fun _ => rfl⟩

theorem witness_RefreshSendsEveryLine :
    up.Quiet ∧ (up.pstate = .active ∨ up.pstate = .blanked) ∧ up.seq.unit = .idle ∧ up.lock = .free ∧ up.waitq = [] ∧
    up.LinesAnswerOk ∧ (∀ n, up.txAnswers.get n = .ok) ∧ (∀ n, up.grants.get n = true) :=
  ⟨rfl, .inl rfl, rfl, rfl, rfl, up_linesAnswerOk, fun _ => rfl, fun _ => rfl⟩

theorem witness_BestEffortRefreshReportsSuccess :
    up.Quiet ∧ (up.pstate = .active ∨ up.pstate = .blanked) ∧ up.seq.unit = .idle ∧ up.lock = .free ∧ up.waitq = [] ∧
    up.inFlight = none ∧ up.policy = .bestEffort ∧ up.Returns :=
  ⟨rfl, .inl rfl, rfl, rfl, rfl, rfl, rfl, up_returns⟩

/-- The environment in which the first `k` lines of a FailFast refresh go well and line `k` does not. -/
def failsAt (k : Nat) (g : Bool) (a : List TxAnswer) : State :=
  { up with
    policy := .failFast
    grants := ⟨List.replicate k true ++ [g], true⟩
    txAnswers := ⟨List.replicate (2 * k) .ok ++ a, .ok⟩ }

theorem witness_FailFastRefreshStopsAtTheFirstFailure :
    ∀ g a, (failsAt 239 g a).Quiet ∧
      ((failsAt 239 g a).pstate = .active ∨ (failsAt 239 g a).pstate = .blanked) ∧ (failsAt 239 g a).seq.unit = .idle ∧
      (failsAt 239 g a).lock = .free ∧ (failsAt 239 g a).waitq = [] ∧ (failsAt 239 g a).policy = .failFast ∧
      (failsAt 239 g a).LinesAnswerOk ∧ 239 < 240 ∧ (∀ n, n < 239 → (failsAt 239 g a).grants.get n = true) ∧
      (∀ n, n < 2 * 239 → (failsAt 239 g a).txAnswers.get n = .ok) := by
  intro g a
  refine ⟨rfl, .inl rfl, rfl, rfl, rfl, rfl, ⟨fun _ => rfl, fun _ => rfl, fun _ => rfl⟩, by decide, fun n hn => ?_, fun n hn => ?_⟩
  · exact script_get_of_lt hn
  · exact script_get_of_lt hn

theorem witness_FailFastRefreshStopsAtTheFirstFailure_clauses :
    (failsAt 239 false []).grants.get 239 = false ∧
    ((failsAt 239 true [.fail 7]).grants.get 239 = true ∧ (failsAt 239 true [.fail 7]).txAnswers.get (2 * 239) = .fail 7) ∧
    ((failsAt 239 true [.ok, .fail 152]).grants.get 239 = true ∧
      (failsAt 239 true [.ok, .fail 152]).txAnswers.get (2 * 239) = .ok ∧
      (failsAt 239 true [.ok, .fail 152]).txAnswers.get (2 * 239 + 1) = .fail 152) := by decide +kernel

/-- A refresh that reads a whole row and then stops. -/
theorem witness_RefreshDoesNotLookAtBlanking :
    ∃ t, (failsAt 0 false []).Quiet ∧ (failsAt 0 false []).waitq = [] ∧
      exec (.refresh 3) { failsAt 0 false [] with pstate := .active } = .next t := by
  obtain ⟨t, h⟩ := nextOf_isSome (show (nextOf (exec (.refresh 3)
    { failsAt 0 false [] with pstate := .active })).isSome = true by decide +kernel)
  exact ⟨t, rfl, rfl, h⟩

theorem witness_RefreshWithoutAPanelIsTurnedAway :
    off.Quiet ∧ (off.pstate = .uninitialized ∨ off.pstate = .off) ∧
    (State.reset.pstate = .uninitialized ∨ State.reset.pstate = .off) ∧ off.seq.unit = .idle ∧ off.lock = .free ∧
    off.waitq = [] := by decide

theorem witness_RequestsWaitBehindTheLock :
    busy.Quiet ∧ busy.lock = .held 1 ∧ busy.seq.unit ≠ .init ∧ busy.pstate ≠ .initializing ∧ busy.pstate ≠ .off := by
  decide

theorem witness_AnyWaiterBehindATeardownIsAnswered :
    let s : State := { off with waitq := [(1, .refresh), (2, .detach), (3, .refresh)], arb := ⟨[2], 0⟩ }
    s.Quiet ∧ s.inFlight = none ∧ s.ordered = none ∧ s.seq.unit = .idle ∧ s.port = [] ∧ s.pstate = .off ∧
      s.lock = .free ∧ s.waitq[2]? = some (3, .refresh) ∧ s.arb.get 0 = 2 := by decide

/-- Three waiting requests, and an arbiter that passes over the first. -/
def queued (n : Nat) : State :=
  { up with waitq := [(1, .refresh), (2, .detach), (3, .refresh)], arb := ⟨[n + 3], 0⟩, port := [none] }

theorem witness_IdleBlockServesTheChosenWaiter :
    ∀ n, (queued n).Quiet ∧ (queued n).inFlight = none ∧ (queued n).ordered = none ∧ (queued n).seq.unit = .idle ∧
      ((queued n).port = [] ∨ (∃ rest, (queued n).port = none :: rest)) ∧
      ((queued n).pstate = .active ∨ (queued n).pstate = .blanked) ∧ (queued n).lock = .free ∧
      (queued n).LinesAnswerOk ∧ (∀ k, (queued n).txAnswers.get k = .ok) ∧ (∀ k, (queued n).grants.get k = true) :=
  fun _ => ⟨rfl, rfl, rfl, rfl, .inr ⟨[], rfl⟩, .inl rfl, rfl, ⟨fun _ => rfl, fun _ => rfl, fun _ => rfl⟩,
    fun _ => rfl, fun _ => rfl⟩

theorem witness_IdleBlockServesTheChosenWaiter_clauses :
    ((queued 2).waitq[2]? = some (3, .refresh) ∧ (queued 2).arb.get 0 % (queued 2).waitq.length = 2) ∧
    ((queued 1).waitq[1]? = some (2, .detach) ∧ (queued 1).arb.get 0 % (queued 1).waitq.length = 1) ∧
    after (fun t => (t.trace, t.waitq)) (step (queued 1)) =
      some ([.acq 2, .set .displayEnable false true, .set .chipSelect false true, .rel 2, .ret 2 .ok],
        [(1, .refresh), (3, .refresh)]) := by decide +kernel

theorem witness_AnswersMayComeLater_init :
    (produced up).pstate = .active ∧ (produced off).pstate = .off ∧ (produced up).seq.unit ≠ .init ∧
    (produced up).during.headD [] = edge.map (fun w => .wr w.1 w.2) ∧
    ({ up with during := [[.putOff], []] } : State).during.headD [] = [.putOff] ∧
    after (fun t => (t.trace, t.owed)) (exec (.init 3) { up with during := [[.putOff], []] }) =
      some ([.cmd 3 1#3], [(3, .invalidArgument)]) ∧
    after (fun t => (t.trace, t.fb)) (exec (.init 3) (produced up)) =
      some ([.cmd 3 1#3, .wr 383999 0xAA#8, .ret 3 .invalidArgument], [(383999, 0xAA#8)]) := by decide +kernel

/-- A block that owes one return, and inside whose next line a command is turned away. -/
def interrupted (s : State) (op : BitVec 3) : State :=
  { s with owed := [(5, .ok)], during := [[.cmd 3 op], [.wr 383999 1#8], [.answer 1]] }

theorem witness_AnswersMayComeLater_line :
    ((interrupted up 7#3).during = [[.cmd 3 7#3], [.wr 383999 1#8], [.answer (interrupted up 7#3).owed.length]] ∧
      (239#16).toNat < 240 ∧ 383999 < 384000 ∧ (interrupted up 7#3).lock = .free ∧
      (interrupted up 7#3).seq.unit ≠ .init ∧
      (interrupted up 7#3).pstate ≠ .initializing ∧ (interrupted up 1#3).pstate ≠ .uninitialized ∧
      (interrupted off 5#3).pstate = .off ∧ (interrupted up 7#3).grants.get 0 = true ∧
      (∀ n, n < 2 → (interrupted up 7#3).txAnswers.get n = .ok) ∧
      (∀ n, n < 2 → (interrupted up 7#3).ctlAnswers.get n = .ok)) ∧
    ∀ c ∈ [(up, 7#3), (up, 1#3), (off, 5#3)],
      after (fun t => (t.trace, t.owed)) (exec (.sendLine 239#16) (interrupted c.1 c.2)) =
        some ([.cmd 3 c.2, .set .chipSelect true true, .wr 383999 1#8, .tx (hdrOf 0xEF#8) .ok,
          .ret 3 .invalidArgument, .tx (List.replicate 152 0#8) .ok, .set .chipSelect false true], [(5, .ok)]) := by
  decide +kernel

/-- A command turned away inside a refresh is answered after the release, and not where it is first asked for (R172). -/
theorem witness_AnswersMayComeLater_held :
    ∀ op ∈ [0#3, 7#3, 1#3, 5#3],
      let s : State := { off with owed := [(5, .ok)], during := [[], [.cmd 2 op, .answer 1], [.answer 1]] }
      s.seq.unit = .idle ∧ s.lock = .free ∧ s.waitq = [] ∧ s.pstate = .off ∧
        s.during = [[], [.cmd 2 op, .answer s.owed.length], [.answer s.owed.length]] ∧
        after (fun t => (t.trace, t.owed)) (exec (.refresh 1) s) =
          some ([.cmd 1 2#3, .acq 1, .cmd 2 op, .rel 1, .ret 2 .invalidArgument, .ret 1 .invalidArgument], [(5, .ok)]) := by
  decide +kernel

/-- P7: the return of a refresh comes before the next grant. -/
theorem witness_AnswersMayComeLater_grant :
    let s : State := { off with during := [[], [], [.cmd 2 0b010#3, .putOff]] }
    s.inFlight = none ∧ s.ordered = none ∧ s.port = [] ∧ (s.pstate = .uninitialized ∨ s.pstate = .off) ∧
      s.seq.unit = .idle ∧ s.lock = .free ∧ s.waitq = [] ∧ s.during = [[], [], [.cmd 2 0b010#3, .putOff]] ∧
      after (fun t => (t.trace, t.owed, t.waitq)) (exec (.refresh 1) s) =
        some ([.cmd 1 2#3, .acq 1, .rel 1, .cmd 2 2#3, .ret 1 .invalidArgument], [], [(2, .refresh)]) := by decide +kernel

theorem witness_AnswersMayComeLater_idle :
    let s : State := { up with owed := [(1, .transportFailure), (2, .ok)], port := [none] }
    s.inFlight = none ∧ s.ordered = none ∧ (s.port = [] ∨ ∃ p, s.port = none :: p) ∧ s.seq.unit = .idle ∧
      s.lock = .free ∧ s.waitq = [] ∧ s.owed = (1, .transportFailure) :: [(2, .ok)] ∧
      after (fun t => (t.trace, t.owed)) (step s) = some ([.ret 1 .transportFailure], [(2, .ok)]) :=
  ⟨rfl, rfl, .inr ⟨[], rfl⟩, rfl, rfl, rfl, rfl, by decide +kernel⟩

theorem witness_RefreshOfAnUnchangedBufferRepeatsItself :
    up.Quiet ∧ (up.pstate = .active ∨ up.pstate = .blanked) ∧ up.seq.unit = .idle ∧ up.lock = .free ∧ up.waitq = [] ∧
    up.LinesAnswerOk ∧ (∀ n, up.txAnswers.get n = .ok) ∧ (∀ n, up.grants.get n = true) :=
  witness_RefreshSendsEveryLine

/-- FailFast at the grant, BestEffort from the second read on: the refresh still stops at the line without a buffer. -/
theorem witness_PolicyIsSampledOncePerRefresh :
    let s : State := { failsAt 0 false [] with during := [[], [], [.policy .bestEffort]] }
    s.during = [] :: [[], [.policy .bestEffort]] ∧
      (([[], [.policy .bestEffort]] : List (List Input)).all fun slot => slot.all Input.isPolicy) = true ∧
      s.seq.unit = .idle ∧ s.lock = .free ∧ s.waitq = [] ∧
      (∃ t, exec (.refresh 3) { s with during := [] } = .next t) ∧
      after (fun t => (t.policy, t.policyS, t.status, t.trace.length)) (exec (.refresh 3) s) =
        some (.bestEffort, .failFast, .resourceExhausted, 404) :=
  ⟨rfl, rfl, rfl, rfl, rfl, nextOf_isSome (by decide +kernel), by decide +kernel⟩

theorem witness_StepKeepsTheInvariant :
    ∃ t, ({ State.reset with port := [some (.cmd 3 1#3)] } : State).Inv ∧
      step { State.reset with port := [some (.cmd 3 1#3)] } = .next t := by
  obtain ⟨t, h⟩ := nextOf_isSome (show (nextOf (step
    { State.reset with port := [some (.cmd 3 1#3)] })).isSome = true by decide +kernel)
  exact ⟨t, ⟨by decide, by decide +kernel, by decide, by decide, by decide, by decide, by decide, by decide⟩, h⟩

theorem witness_StepEmitsOnlyLawfulEvents :
    ∃ t, ({ State.reset with port := [some (.cmd 3 1#3)] } : State).Inv ∧
      step { State.reset with port := [some (.cmd 3 1#3)] } = .next t := witness_StepKeepsTheInvariant

theorem witness_OffIsTerminal :
    ∃ t, ({ off with port := [some (.cmd 3 1#3)] } : State).Inv ∧ off.pstate = .off ∧
      ({ off with port := [some (.cmd 3 1#3)] } : State).noResetDuring = true ∧
      ({ off with port := [some (.cmd 3 1#3)] } : State).noResetAtPort = true ∧
      step { off with port := [some (.cmd 3 1#3)] } = .next t := by
  obtain ⟨t, h⟩ := nextOf_isSome (show (nextOf (step
    { off with port := [some (.cmd 3 1#3)] })).isSome = true by decide +kernel)
  exact ⟨t, ⟨by decide, by decide +kernel, by decide, by decide, by decide, by decide, by decide, by decide⟩,
    rfl, rfl, rfl, h⟩

theorem witness_OnlyTheControllerChangesThePowerState :
    up.Quiet ∧ up.waitq = [] ∧ (∃ t, exec (.sendLine 0#16) up = .next t) ∧ (∃ t, exec .trailer up = .next t) ∧
    (∃ t, exec .allClear up = .next t) ∧ (∃ t, exec (.encodeRow 0) up = .next t) ∧
    (∃ t, exec (.refresh 3) (failsAt 0 false []) = .next t) :=
  ⟨by decide, by decide, nextOf_isSome (by decide +kernel), nextOf_isSome (by decide +kernel),
    nextOf_isSome (by decide +kernel), nextOf_isSome (by decide +kernel), nextOf_isSome (by decide +kernel)⟩

/-- Values a reset may leave where 10_state.md R36 specifies none. -/
def junk : Scratch := ⟨[(0, 0xAA#8)], [0xBB#8], [], .transportFailure, .failFast⟩

theorem witness_ResetInputEmitsNoEvent :
    (let s : State := { stuck with port := [some (.reset junk)] }
     (s.inFlight ≠ none ∨ (s.seq.unit = .idle ∧ s.ordered = none)) ∧ s.port = some (.reset junk) :: []) ∧
    (let s : State := { up with port := [some (.reset junk)] }
     (s.inFlight ≠ none ∨ (s.seq.unit = .idle ∧ s.ordered = none)) ∧ s.port = some (.reset junk) :: []) := by decide

theorem witness_ResetAbandonsALine :
    ∀ k, 1 ≤ k → k ≤ 3 →
      let s : State := { up with during := List.replicate k [] ++ [[.reset junk]] }
      s.during = List.replicate k [] ++ [[.reset junk]] ∧ (0#16).toNat < 240 ∧ s.grants.get 0 = true ∧
        s.ctlAnswers.get 0 ≠ .never ∧ (2 ≤ k → s.txAnswers.get 0 ≠ .never) ∧
        (k = 3 → s.txAnswers.get 0 = .ok ∧ s.txAnswers.get 1 ≠ .never) :=
  fun _ _ _ => ⟨rfl, by decide, rfl, nofun, fun _ => nofun, fun _ => ⟨rfl, nofun⟩⟩

theorem witness_StuckBlockTakesNoStep :
    ∃ t, ({ stuck with port := [some (.cmd 2 2#3)] } : State).inFlight = some (.tx (headerBytes 0#16)) ∧
      ({ stuck with port := [some (.cmd 2 2#3)] } : State).noResetAtPort = true ∧
      step { stuck with port := [some (.cmd 2 2#3)] } = .next t := by
  obtain ⟨t, h⟩ := nextOf_isSome (show (nextOf (step
    { stuck with port := [some (.cmd 2 2#3)] })).isSome = true by decide +kernel)
  exact ⟨t, rfl, rfl, h⟩

end Sys2Proof.Tests
end

section
/-! SUPPORT. What holds inside an operation: a triple for actions in which a block that stops in a next state has the
invariant, and the states the block passes through while a unit runs. -/

namespace Sys2Proof.Machine

variable {α β : Type}

/-! ## Triples -/

/-- From every state with `P` the action either ends well, with `Q` of its result and state, or is refused or faults, or
stops stuck or reset in a state with the invariant. -/
def Act.Leads (P : State → Prop) (x : Act α) (Q : α → State → Prop) : Prop :=
  ∀ s, P s →
    match x s with
    | .ok a t => Q a t
    | .error e t => e = .stuck ∨ e = .reset → t.Inv

/-- The action leads from `P` to `P`, whatever its result. -/
abbrev Act.Stays (P : State → Prop) (x : Act α) : Prop := Act.Leads P x fun _ => P

theorem Act.Leads.pure {P : State → Prop} {Q : α → State → Prop} {a : α} (h : ∀ s, P s → Q a s) :
    Act.Leads P (pure a) Q := h

theorem Act.Leads.update {P : State → Prop} {Q : Unit → State → Prop} {g : State → State}
    (h : ∀ s, P s → Q () (g s)) : Act.Leads P (Act.update g) Q := h

theorem Act.Leads.refuse {P : State → Prop} {Q : α → State → Prop} (r : Refusal) :
    Act.Leads P (Act.stop (.refused r)) Q := fun _ _ => by simp

theorem Act.Leads.bind {P : State → Prop} {R : α → State → Prop} {Q : β → State → Prop} {x : Act α}
    {f : α → Act β} (hx : Act.Leads P x R) (hf : ∀ a, Act.Leads (R a) (f a) Q) : Act.Leads P (x >>= f) Q := by
  intro s hs
  have h := hx s hs
  cases hxs : x s with
  | ok a t =>
    rw [hxs] at h
    rw [Act.bind_ok hxs]
    exact hf a t h
  | error e t =>
    rw [hxs] at h
    rw [Act.bind_error hxs]
    exact h

/-- What follows a read knows the value read. -/
theorem Act.Leads.read_bind {P : State → Prop} {Q : β → State → Prop} {g : State → α} {f : α → Act β}
    (hf : ∀ a, Act.Leads (fun s => P s ∧ g s = a) (f a) Q) : Act.Leads P (Act.read g >>= f) Q :=
  fun s hs => hf (g s) s ⟨hs, rfl⟩

theorem Act.Leads.imp {P : State → Prop} {Q Q' : α → State → Prop} {x : Act α} (h : Act.Leads P x Q)
    (hQ : ∀ a s, Q a s → Q' a s) : Act.Leads P x Q' := by
  intro s hs
  have h := h s hs
  cases hxs : x s with
  | ok a t => rw [hxs] at h; exact hQ a t h
  | error e t => rw [hxs] at h; exact h

/-- What needs `P` alone may also begin where more is known. -/
theorem Act.Leads.forget {P R : State → Prop} {Q : α → State → Prop} {x : Act α} (h : Act.Leads P x Q) :
    Act.Leads (fun s => P s ∧ R s) x Q := fun s hs => h s hs.1

theorem Act.Leads.ite {P : State → Prop} {Q : α → State → Prop} {c : Prop} [Decidable c] {x y : Act α}
    (hx : c → Act.Leads P x Q) (hy : ¬ c → Act.Leads P y Q) : Act.Leads P (if c then x else y) Q := by
  split
  · exact hx ‹_›
  · exact hy ‹_›

/-- An action whose good end has the invariant gives only next states with the invariant. -/
theorem Act.Leads.next {P : State → Prop} {x : Act Unit} (h : Act.Leads P x fun _ => State.Inv) {s t : State}
    (hs : P s) (ht : x.outcome s = .next t) : t.Inv := by
  have h := h s hs
  unfold Act.outcome at ht
  cases hx : x s with
  | ok a u => rw [hx] at h ht; cases ht; exact h
  | error e u => rw [hx] at h ht; cases e <;> cases ht <;> exact h (by simp)

/-! ## The states inside a unit -/

/-- The block, in no call, runs the unit `u` (`idle`: none), the words sampled so far having `P`. -/
structure State.Mid (u : SeqUnit) (P : List Word → Prop) (s : State) : Prop where
  fb : s.fb.wf = true
  lb : s.lb.length = 152
  hdr : s.hdr.length = 7
  com : s.ctl.comInversionInput = false
  lock : s.lock.isHeld = true ↔ u = .refresh ∨ u = .detach
  init : s.pstate = .initializing ↔ u = .init
  unit : s.seq.unit = u
  inFlight : s.inFlight = none
  ordered : s.ordered = none
  px : P s.px

/-- The block runs `u`, whatever it has sampled. -/
abbrev State.In (u : SeqUnit) : State → Prop := State.Mid u fun _ => True

variable {u : SeqUnit} {P : List Word → Prop} {s : State}

theorem State.Mid.weaken {P' : List Word → Prop} (h : s.Mid u P) (hp : ∀ l, P l → P' l) : s.Mid u P' :=
  { h with px := hp _ h.px }

/-- An operation that stays inside a call leaves the invariant. -/
theorem State.Mid.inv_stuck (h : s.Mid u P) (c : Call) : ({ s with inFlight := some c } : State).Inv :=
  { h with lock := by rw [h.unit]; exact h.lock, init := by rw [h.unit]; exact h.init, rest := nofun }

/-- Between operations the block has the invariant. -/
theorem State.Mid.inv (h : s.Mid .idle P) : s.Inv :=
  { h with lock := by rw [h.unit]; exact h.lock, init := by rw [h.unit]; exact h.init, rest := fun _ => h.unit }

/-- A block with the invariant that is in no call is between operations. -/
theorem State.Inv.mid (h : s.Inv) (hc : s.inFlight = none) : s.In .idle :=
  { h with
    lock := by rw [← h.rest hc]; exact h.lock
    init := by rw [← h.rest hc]; exact h.init
    unit := h.rest hc
    inFlight := hc
    px := trivial }

theorem State.Mid.withPort (h : s.Mid u P) (p : List (Option Input)) : ({ s with port := p } : State).Mid u P :=
  { h with }

theorem State.Inv.withPort (h : s.Inv) (p : List (Option Input)) : ({ s with port := p } : State).Inv := { h with }

/-- An accepted command finds a block that does not run INIT. -/
theorem State.Mid.not_init (h : s.Mid u P) (hp : s.pstate ≠ .initializing) : u ≠ .init := fun hu => hp (h.init.2 hu)

theorem State.Mid.setPState (h : s.Mid u P) {p : PState} (hs : s.pstate ≠ .initializing) (hp : p ≠ .initializing) :
    (s.setPState p).Mid u P := { h with init := ⟨fun hq => absurd hq hp, fun hu => absurd hu (h.not_init hs)⟩ }

/-- A reset gives a state with the invariant, whatever it meets. -/
theorem State.resetTo_inv (s : State) (v : Scratch) : (s.resetTo v).Inv where
  fb := Memory.wf_ofCells _
  lb := by simp [fitBytes, Config.encBytes]
  hdr := by simp [fitBytes, Config.hdrBytes]
  com := rfl
  lock := by simp [Lock.isHeld]
  init := by simp
  rest _ := rfl
  ordered := rfl

/-! ## The primitives alone -/

theorem Ctl.answered_com {c : Ctl} {l : Line} (hl : l ≠ .comInversionInput) (v : Bool) (a : CtlAnswer) :
    (c.answered l v a).comInversionInput = c.comInversionInput := by
  unfold Ctl.answered
  split
  · cases l with
    | comInversionInput => exact absurd rfl hl
    | _ => rfl
  · rfl

theorem ctlSetNow_stays {l : Line} (hl : l ≠ .comInversionInput) (v : Bool) :
    Act.Stays (State.Mid u P) (ctlSetNow l v) := by
  intro s h
  by_cases ha : s.ctlAnswers.get 0 = .never
  · rw [ctlSetNow_never ha]
    exact fun _ => { h.inv_stuck _ with }
  · rw [ctlSetNow_answers ha]
    exact { h with com := (Ctl.answered_com hl _ _).trans h.com }

theorem txNow_stays (bytes : List Byte) : Act.Stays (State.Mid u P) (txNow bytes) := by
  intro s h
  cases ha : s.txAnswers.get 0 with
  | ok => rw [txNow_ok ha]; exact { h with }
  | fail n => rw [txNow_fail ha]; exact { h with }
  | never => rw [txNow_never ha]; exact fun _ => { h.inv_stuck _ with }

theorem rdNow_stays (a : Nat) : Act.Stays (State.Mid u P) (rdNow a) := by
  intro s h
  by_cases hin : a + 3 < Config.fbBytes
  · cases ha : s.rdAnswers.get 0 with
    | true => rw [rdNow_returns hin ha]; exact { h with }
    | false =>
      rw [rdNow_never hin ha]
      exact fun _ => { h.inv_stuck _ with }
  · rw [rdNow_outside hin]; simp

theorem waitNow_stays (d : Delay) : Act.Stays (State.Mid u P) (waitNow d) := by
  intro s h
  cases ha : s.waitAnswers.get 0 with
  | true => rw [waitNow_ends ha]; exact { h with }
  | false =>
    rw [waitNow_never ha]
    exact fun _ => { h.inv_stuck _ with }

theorem retNow_stays (r : Req) (st : Status) : Act.Stays (State.Mid u P) (retNow r st) := .update fun _ h => { h with }

theorem answerNow_stays (k : Nat) : Act.Stays (State.Mid u P) (answerNow k) := by
  intro s h
  cases hl : s.lock with
  | held r => rw [answerNow_held hl]; exact h
  | free =>
    cases ho : s.owed[k]? with
    | none => rw [answerNow_none ho]; exact h
    | some c => rw [answerNow_owed hl ho]; exact { h with }

/-- What the event of a command keeps, the issuing of one keeps. -/
theorem issue_leads {Q : State → Prop} {r : Req} {op : BitVec 3} (hQ : ∀ s, Q s → Q (s.emit (.cmd r op))) :
    Act.Leads Q (issue r op) fun _ s => Q s ∧ s.pstate ≠ .initializing := by
  intro s h
  by_cases hi : s.seq.unit = .init ∨ s.pstate = .initializing
  · rw [issue_refused hi]; simp
  · obtain ⟨hu, hp⟩ := not_or.1 hi
    rw [issue_accepted hu hp]
    exact ⟨hQ s h, hp⟩

theorem issue_stays (r : Req) (op : BitVec 3) :
    Act.Leads (State.Mid u P) (issue r op) fun _ s => s.Mid u P ∧ s.pstate ≠ .initializing :=
  issue_leads fun _ h => { h with }

/-- What a byte inside the buffer and its event keep, a producer's write keeps. -/
theorem produceByte_leads {Q : State → Prop} {a : Nat} {b : Byte}
    (hQ : ∀ s, a < Config.fbBytes → Q s → Q { s with fb := s.fb.write a b, trace := s.trace ++ [.wr a b] }) :
    Act.Stays Q (produceByte a b) := by
  intro s h
  rw [produceByte_apply]
  show Q _
  split
  · exact hQ s ‹_› h
  · exact h

theorem produceByte_stays (a : Nat) (b : Byte) : Act.Stays (State.Mid u P) (produceByte a b) :=
  produceByte_leads fun _ ha h => { h with fb := Memory.wf_write b ha h.fb }

/-! ## What arrives inside an operation -/

/-- BLANK and UNBLANK have one shape: the call, then the power state. -/
theorem blanking_stays {r : Req} {op : BitVec 3} {v : Bool} {p : PState} (hp : p ≠ .initializing) :
    Act.Stays (State.Mid u P) (do
      issue r op
      let q ← Act.read State.pstate
      if q.isUp then
        let _ ← ctlSetNow .displayEnable v
        Act.update fun s => s.setPState p
        retNow r .ok
      else
        retNow r .invalidArgument) := by
  refine (issue_stays r op).bind fun _ => .read_bind fun q => .ite (fun _ => ?_) fun _ =>
    (retNow_stays r _).forget.forget
  by_cases hu : u = .init
  · exact fun s ⟨⟨hm, hp⟩, _⟩ => absurd hu (hm.not_init hp)
  · exact (ctlSetNow_stays (by decide) v).forget.forget.bind fun _ =>
      .bind (.update fun s h => h.setPState (fun hi => hu (h.init.1 hi)) hp) fun _ => retNow_stays r _

theorem requestRefresh_stays (r : Req) : Act.Stays (State.Mid u P) (requestRefresh r) :=
  (issue_stays r _).bind fun _ => .update fun _ ⟨h, _⟩ => { h with }

theorem requestDetach_stays (r : Req) : Act.Stays (State.Mid u P) (requestDetach r) :=
  (issue_stays r _).bind fun _ => .read_bind fun _ => .ite (fun _ => .pure fun _ ⟨⟨h, _⟩, _⟩ => h) fun _ =>
    .bind (.update (Q := fun _ => State.Mid u P) fun _ ⟨⟨h, _⟩, _⟩ => { h with }) fun _ => .pure fun _ => id

theorem turnAway_stays (r : Req) : Act.Stays (State.Mid u P) (turnAway r) := .update fun _ h => { h with }

theorem initMeetsOperation_stays (r : Req) : Act.Stays (State.Mid u P) (initMeetsOperation r) :=
  (issue_stays r _).bind fun _ => .read_bind fun _ => .ite (fun _ => .refuse _) fun _ =>
    (turnAway_stays r).forget.forget

theorem arrive_stays (r : Req) (op : BitVec 3) : Act.Stays (State.Mid u P) (arrive r op) := by
  unfold arrive
  split
  · exact initMeetsOperation_stays r
  · exact requestRefresh_stays r
  · exact blanking_stays (by decide)
  · exact blanking_stays (by decide)
  · exact (requestDetach_stays r).bind fun _ => .ite (fun _ => .pure fun _ => id) fun _ => turnAway_stays r
  · exact (issue_stays r op).bind fun _ => (turnAway_stays r).forget

theorem applyInput_stays (i : Input) : Act.Stays (State.Mid u P) (applyInput i) :=
  match i with
  | .cmd r op => arrive_stays r op
  | .wr a b => produceByte_stays a b
  | .policy _ => .update fun _ h => { h with }
  | .reset v => fun s _ _ => s.resetTo_inv v
  | .answer k => answerNow_stays k
  | .putOff => .pure fun _ => id

theorem applyInputs_stays : ∀ is : List Input, Act.Stays (State.Mid u P) (applyInputs is)
  | [] => .pure fun _ => id
  | i :: is => by
    intro s h
    have hi := applyInput_stays i s h
    unfold applyInputs
    cases hx : applyInput i s with
    | ok a t =>
      rw [hx] at hi
      simpa only [hx] using applyInputs_stays is t hi
    | error e t =>
      rw [hx] at hi
      simpa only [hx] using fun he => (hi he).withPort _

theorem envTurn_stays : Act.Stays (State.Mid u P) envTurn := by
  intro s h
  unfold envTurn
  cases hd : s.during with
  | nil => exact h
  | cons slot later => exact applyInputs_stays slot _ { h with }

theorem openTurn_stays : Act.Stays (State.Mid u P) openTurn := by
  intro s h
  unfold openTurn
  cases hd : s.during with
  | nil => exact h
  | cons slot later =>
    have ha := applyInputs_stays (s.beforeInit slot)
      { s with during := later, port := (slot.drop (s.beforeInit slot).length).map some ++ s.port } { h with }
    dsimp only
    generalize applyInputs (s.beforeInit slot) _ = e at ha ⊢
    cases e with
    | ok a t => exact ha
    | error e t => exact ha

end Sys2Proof.Machine
end

section
/-! SUPPORT. What is built of the same parts has the same properties: the line framer and the line loop said once, for
every property of actions that sequential composition keeps. -/

namespace Sys2Proof.Machine

/-- A property of actions that does nothing and sequential composition keep. -/
structure Act.Compositional (J : (α : Type) → Act α → Prop) : Prop where
  pure : ∀ {α : Type} (a : α), J α (pure a)
  bind : ∀ {α β : Type} {x : Act α} {f : α → Act β}, J α x → (∀ a, J β (f a)) → J β (x >>= f)

/-- A property of actions that the parts of a line have: the calls, and what the pseudocode reads and writes between
them (41_line_framer.md R129; 43_refresh_coordinator.md R170). -/
structure Act.LineParts (J : (α : Type) → Act α → Prop) : Prop extends Act.Compositional J where
  chipSelect : ∀ v, J Bool (ctlSet .chipSelect v)
  tx : ∀ bytes, J Bool (tx bytes)
  gap : J Unit (wait .interLine)
  grant : J Bool grantNow
  encode : ∀ n : Fin 240, J Unit (encodeRow n)
  readLb : J (List Byte) (Act.read State.lb)
  readHdr : J (List Byte) (Act.read State.hdr)
  readResult : J (Option Status) (Act.read State.result)
  readPolicyS : J Policy (Act.read State.policyS)
  setStep : ∀ p, J Unit (Act.update fun s => s.setStep p)
  setResult : ∀ st, J Unit (Act.update fun s => s.setResult st)
  close : ∀ st, J Unit (Act.update fun s => (s.setStep .csDeassert).setResult (some st))
  header : ∀ line, J Unit (Act.update fun s => { s with hdr := headerBytes line }.setStep .csAssert)
  openLine : ∀ n, J Unit (Act.update fun s => (s.setLn n).setStep .encode)

/-- A property of actions that the parts of ENCODE_ROW of a row have (40_pixel_encoder.md R105). -/
structure Act.RowParts (J : (α : Type) → Act α → Prop) (y : Nat) : Prop extends Act.Compositional J where
  rd : ∀ x : Fin 400, J Word (rd (pixelAddr y x))
  setPxi : ∀ x, J Unit (Act.update fun s => s.setPxi x)
  sample : ∀ w, J Unit (Act.update fun s => s.sample w)
  dropSamples : J Unit (Act.update fun s => { s with px := [] })
  packLine : J Unit (Act.update State.packLine)

variable {J : (α : Type) → Act α → Prop}

theorem Act.RowParts.readPixels {y : Nat} (h : Act.RowParts J y) : ∀ xs, J Unit (readPixels y xs)
  | [] => h.pure _
  | x :: xs => h.bind (h.setPxi x) fun _ => h.bind (h.rd x) fun w => h.bind (h.sample w) fun _ => h.readPixels xs

theorem Act.RowParts.encodeRow {y : Nat} (h : Act.RowParts J y) : J Unit (encodeRow y) :=
  h.bind h.dropSamples fun _ => h.bind (h.readPixels _) fun _ => h.packLine

namespace Act.LineParts

variable (h : Act.LineParts J)
include h

theorem deassertLine : J Status deassertLine :=
  h.bind (h.chipSelect false) fun _ => h.bind h.readResult fun _ => h.bind (h.setResult none) fun _ => h.pure _

theorem closeLine (r1 r2 : Bool) : J Status (closeLine r1 r2) := h.bind (h.close _) fun _ => h.deassertLine

theorem sendPayload : J Status sendPayload :=
  h.bind h.readLb fun _ => h.bind (h.tx _) fun r2 => h.closeLine true r2

theorem sendHeader : J Status sendHeader :=
  h.bind h.readHdr fun _ => h.bind (h.tx _) fun r1 => by
    cases r1 with
    | true => exact h.bind (h.setStep _) fun _ => h.sendPayload
    | false => exact h.closeLine false false

theorem assertLine : J Status assertLine :=
  h.bind (h.chipSelect true) fun _ => h.bind (h.setStep _) fun _ => h.sendHeader

theorem sendLine (line : BitVec 16) : J Status (sendLine line) := by
  unfold Machine.sendLine
  split
  · exact h.pure _
  · refine h.bind h.grant fun granted => ?_
    cases granted with
    | true => exact h.bind (h.header line) fun _ => h.assertLine
    | false => exact h.pure _

theorem afterLine (st : Status) {rest : Act Status} (hr : J Status rest) : J Status (afterLine st rest) := by
  refine h.bind h.readPolicyS fun p => ?_
  split
  · exact h.pure _
  · exact h.bind (h.setStep _) fun _ => h.bind h.gap fun _ => hr

theorem lineLoop : ∀ ns, J Status (lineLoop ns)
  | [] => h.pure _
  | n :: ns => h.bind (h.openLine n) fun _ => h.bind (h.encode n) fun _ => h.bind (h.sendLine _) fun st =>
      h.afterLine st (lineLoop ns)

end Act.LineParts

end Sys2Proof.Machine
end

section
/-! SUPPORT. Every step keeps the invariant: each operation, from its start to its end. -/

namespace Sys2Proof.Machine

variable {u v : SeqUnit} {P : List Word → Prop} {s : State}

/-! ## Calls inside an operation -/

theorem ctlSet_stays {l : Line} (hl : l ≠ .comInversionInput) (b : Bool) : Act.Stays (State.Mid u P) (ctlSet l b) :=
  envTurn_stays.bind fun _ => ctlSetNow_stays hl b

theorem tx_stays (bytes : List Byte) : Act.Stays (State.Mid u P) (tx bytes) :=
  envTurn_stays.bind fun _ => txNow_stays bytes

theorem rd_stays (a : Nat) : Act.Stays (State.Mid u P) (rd a) := envTurn_stays.bind fun _ => rdNow_stays a

theorem wait_stays (d : Delay) : Act.Stays (State.Mid u P) (wait d) := envTurn_stays.bind fun _ => waitNow_stays d

theorem ret_stays (r : Req) (st : Status) : Act.Stays (State.Mid u P) (ret r st) :=
  envTurn_stays.bind fun _ => retNow_stays r st

theorem retTurnedAway_stays (r : Req) : Act.Stays (State.Mid u P) (retTurnedAway r) :=
  .read_bind fun _ => openTurn_stays.forget.bind fun _ =>
    .ite (fun _ => turnAway_stays r) fun _ => retNow_stays r _

/-! ## A row -/

theorem placePixels_length : ∀ (ws : List Word) (i : Nat) (out : List Byte),
    (placePixels i ws out).length = out.length
  | [], _, _ => rfl
  | w :: ws, i, out => by
    have hk : ∀ k o, (placeChannel i w o k).length = o.length := fun k o => by
      unfold placeChannel; split <;> simp
    simp [placePixels, placePixels_length ws, hk]

/-- The length of `pack_row` (40_pixel_encoder.md R103). -/
theorem packRow_length (px : List Word) : (packRow px).length = packedLength px.length + 2 := by
  simp [packRow, placePixels_length]

theorem readPixels_samples (y : Nat) : ∀ (xs : List (Fin 400)) (n : Nat),
    Act.Leads (State.Mid u fun l => l.length = n) (readPixels y xs) fun _ =>
      State.Mid u fun l => l.length = n + xs.length
  | [], _ => .pure fun _ => id
  | x :: xs, n => by
    refine .bind (.update (Q := fun _ => State.Mid u fun l => l.length = n) fun _ h => { h with }) fun _ =>
      (rd_stays _).bind fun w => .bind (.update (Q := fun _ => State.Mid u fun l => l.length = n + 1) fun s h =>
        { h with px := by simp [h.px] }) fun _ => ?_
    simpa [Nat.add_assoc, Nat.add_comm 1] using readPixels_samples y xs (n + 1)

theorem encodeRow_stays (y : Nat) : Act.Stays (State.In u) (encodeRow y) := by
  refine .bind (.update (Q := fun _ => State.Mid u fun l => l.length = 0) fun s h => { h with px := rfl }) fun _ =>
    (readPixels_samples y _ 0).bind fun _ => .update fun s h => { h with lb := ?_, px := trivial }
  rw [State.packLine, packRow_length, h.px]
  simp [packedLength, Config.width]

theorem putTrailer_stays : Act.Stays (State.In u) (Act.update State.putTrailer) :=
  .update fun s h => { h with lb := by simp [h.lb, trailerZeros, Config.pixBytes] }

/-! ## A refresh -/

/-- The parts of a line keep the block inside its unit. -/
theorem lineParts_stay (u : SeqUnit) : Act.LineParts fun _ x => Act.Stays (State.In u) x where
  pure _ := .pure fun _ => id
  bind := .bind
  chipSelect b := ctlSet_stays (by decide) b
  tx := tx_stays
  gap := wait_stays _
  grant _ h := { h with }
  encode n := encodeRow_stays n
  readLb _ h := h
  readHdr _ h := h
  readResult _ h := h
  readPolicyS _ h := h
  setStep _ := .update fun _ h => { h with }
  setResult _ := .update fun _ h => { h with }
  close _ := .update fun _ h => { h with }
  header _ := .update fun _ h => { h with hdr := rfl }
  openLine _ := .update fun _ h => { h with }

/-- The lock released and the sequencer idle: no operation runs any more. -/
theorem release_ends (r : Req) (hu : u = .refresh ∨ u = .detach) :
    Act.Leads (State.In u) (release r) fun _ => State.In .idle := by
  refine envTurn_stays.bind fun _ => .bind (R := fun _ s => State.In .idle (s.setUnit .idle)) (.update fun s h => ?_)
    fun _ => .update fun _ => id
  exact { h with
    lock := by simp [Lock.isHeld]
    init := by rcases hu with rfl | rfl <;> simpa using h.init
    unit := rfl }

theorem finishRefresh_ends (r : Req) (st : Status) :
    Act.Leads (State.In .refresh) (finishRefresh r st) fun _ => State.In .idle :=
  (release_ends r (.inl rfl)).bind fun _ => ret_stays r st

/-- The lock has just been granted, and the unit that got it has not begun. -/
def State.Granted (s : State) : Prop :=
  ∀ u, u = .refresh ∨ u = .detach → State.In u (s.setUnit u)

theorem refreshBody_ends (r : Req) : Act.Leads State.Granted (refreshBody r) fun _ => State.In .idle := by
  refine .bind (.update (Q := fun _ => State.In .refresh) fun s h => { h _ (.inl rfl) with }) fun _ =>
    .read_bind fun p => .ite (fun _ => .refuse _) fun _ => .forget ?_
  exact .ite (fun _ => finishRefresh_ends r _) fun _ =>
    ((lineParts_stay _).lineLoop _).bind fun st => finishRefresh_ends r st

/-! ## A teardown -/

theorem detachFinish_ends (r : Req) : Act.Leads (fun s => s.In .detach) (detachFinish r) fun _ => State.In .idle := by
  refine (ctlSet_stays (by decide) _).bind fun _ =>
    .bind (.update (Q := fun _ => State.In .detach) fun s h => ?_) fun _ => (release_ends r (.inr rfl)).bind fun _ => ret_stays r _
  exact h.setPState (by simp [h.init]) (by decide)

theorem detachLower_ends (r : Req) : Act.Leads (State.In .detach) (detachLower r) fun _ => State.In .idle := by
  refine (ctlSet_stays (by decide) _).bind fun _ => .bind (.update (Q := fun _ => State.In .detach) fun s h => ?_)
    fun _ => detachFinish_ends r
  split
  · exact { h.setPState (p := .blanked) (by simp [h.init]) (by decide) with }
  · exact { h with }

theorem detachBody_ends (r : Req) : Act.Leads State.Granted (detachBody r) fun _ => State.In .idle := by
  refine .bind (.update (Q := fun _ => State.In .detach) fun s h => h _ (.inr rfl)) fun _ => .read_bind fun p =>
    .ite (fun _ => .refuse _) fun _ => .forget ?_
  exact .ite (fun _ => (release_ends r (.inr rfl)).bind fun _ => ret_stays r _) fun _ =>
    .bind (.update (Q := fun _ => State.In .detach) fun s h => { h with }) fun _ => detachLower_ends r

/-! ## The lock -/

/-- A grant, if there is one, leaves a unit about to begin. -/
theorem grantLock_grants :
    Act.Leads (State.In .idle) grantLock fun g s => if g.isSome then s.Granted else s.In .idle := by
  intro s h
  by_cases hl : s.lock = .free
  · cases hw : s.waitq[s.arb.get 0 % s.waitq.length]? with
    | none => unfold grantLock; rw [if_pos hl, hw]; exact h
    | some w =>
      rw [grantLock_free hl hw]
      intro u hu
      exact { h with
        lock := ⟨fun _ => hu, fun _ => rfl⟩
        init := by rcases hu with rfl | rfl <;> simpa using h.init
        unit := rfl }
  · rw [grantLock_held hl]; exact h

theorem serve_stays : Act.Stays (State.In .idle) serve := by
  refine openTurn_stays.bind fun _ => .ite (fun _ => .pure fun _ => id) fun _ => grantLock_grants.bind fun g => ?_
  match g with
  | none => exact .pure fun _ => id
  | some (r, .refresh) => exact refreshBody_ends r
  | some (r, .detach) => exact detachBody_ends r

/-! ## INIT -/

/-- `PSTATE` and the unit written together, neither unit holding the lock. -/
theorem State.Mid.move (h : s.Mid u P) {p : PState} (hl : v = .refresh ∨ v = .detach ↔ u = .refresh ∨ u = .detach)
    (hp : p = .initializing ↔ v = .init) : ((s.setPState p).setUnit v).Mid v P :=
  { h with lock := h.lock.trans hl.symm, init := hp, unit := rfl }

theorem initStep_stays (k : InitStep) : Act.Stays (State.Mid u P) (initStep k) := by
  cases k with
  | settle => exact (wait_stays _).bind fun _ => .pure fun _ => id
  | clearWait => exact (wait_stays _).bind fun _ => .pure fun _ => id
  | allClear => exact (tx_stays _).bind fun _ => .pure fun _ => id
  | _ => exact (ctlSet_stays (by decide) _).bind fun _ => .pure fun _ => id

theorem initEnd_ends (r : Req) (st : Status) {p : PState} (hp : p ≠ .initializing) :
    Act.Leads (State.In .init) (do
      envTurn
      Act.update fun s => (s.setPState p).setUnit .idle
      retNow r st) fun _ => State.In .idle :=
  envTurn_stays.bind fun _ => .bind (.update fun s h => h.move (by simp) (by simpa using hp)) fun _ => retNow_stays r st

theorem initFail_ends (r : Req) (k : InitStep) (e : Status) :
    Act.Leads (State.In .init) (initFail r k e) fun _ => State.In .idle := by
  unfold initFail
  split
  · exact (ctlSet_stays (by decide) _).bind fun _ => initEnd_ends r e (by decide)
  · exact initEnd_ends r e (by decide)

theorem initSequence_ends (r : Req) : ∀ ks : List InitStep,
    Act.Leads (State.In .init) (initSequence r ks) fun _ => State.In .idle
  | [] => initEnd_ends r _ (by decide)
  | k :: ks => by
    refine .bind (.update (Q := fun _ => State.In .init) fun _ h => { h with }) fun _ =>
      (initStep_stays k).bind fun e => ?_
    cases e with
    | none => exact initSequence_ends r ks
    | some e => exact initFail_ends r k e

theorem initCommand_stays (r : Req) : Act.Stays (State.In .idle) (initCommand r) := by
  refine (issue_stays r _).bind fun _ => .forget (.read_bind fun _ => .ite
    (fun _ => .read_bind fun _ => .ite (fun _ => ?_) fun _ => .refuse _) fun _ => (retTurnedAway_stays r).forget)
  refine .bind (.update (Q := fun _ => State.In .init) fun s ⟨⟨h, _⟩, _⟩ => ?_) fun _ => initSequence_ends r _
  exact { h.move (v := .init) (p := .initializing) (by simp) (by simp) with }

/-! ## One step -/

/-- A host command at an idle block. -/
theorem detachCommand_stays (r : Req) : Act.Stays (State.In .idle) (detachCommand r) :=
  (requestDetach_stays r).bind fun _ => .ite (fun _ => serve_stays) fun _ => retTurnedAway_stays r

theorem reservedOpcode_stays (r : Req) (op : BitVec 3) : Act.Stays (State.Mid u P) (reservedOpcode r op) :=
  (issue_stays r op).bind fun _ => (retTurnedAway_stays r).forget

/-- What stays inside no operation gives a next state with the invariant. -/
theorem Act.Leads.next_inv {x : Act Unit} (h : Act.Stays (State.In .idle) x) {s t : State} (hs : s.In .idle)
    (ht : x.outcome s = .next t) : t.Inv := Act.Leads.next (h.imp fun _ _ => State.Mid.inv) hs ht

/-- An instruction run at a block between operations leaves the invariant. -/
theorem exec_inv (i : Instr) {s t : State} (hs : s.In .idle) (ht : exec i s = .next t) : t.Inv := by
  have close {x : Act Unit} (ho : x.outcome s = .next t) (hx : Act.Stays (State.In .idle) x) : t.Inv :=
    hx.next_inv hs ho
  cases i with
  | init r => exact close ht (initCommand_stays r)
  | refresh r => exact close ht ((requestRefresh_stays r).bind fun _ => serve_stays)
  | blank r => exact close ht (blanking_stays (by decide))
  | unblank r => exact close ht (blanking_stays (by decide))
  | detach r => exact close ht (detachCommand_stays r)
  | sendLine line => exact close ht (((lineParts_stay .idle).sendLine line).bind fun _ => .update fun _ h => { h with })
  | encodeRow y => exact close ht (encodeRow_stays y)
  | trailer => exact putTrailer_stays.next_inv hs ht
  | allClear => exact close ht ((tx_stays _).bind fun _ => .update fun _ h => { h with })

theorem idleTurn_inv {s t : State} (hs : s.In .idle) (ht : idleTurn s = .next t) : t.Inv := by
  unfold idleTurn at ht
  split at ht
  · exact (answerNow_stays 0).next_inv hs ht
  · exact serve_stays.next_inv hs ht

theorem idleStep_inv {s t : State} (hs : s.In .idle) (ht : idleStep s = .next t) : t.Inv := by
  unfold idleStep at ht
  split at ht
  · split at ht
    · exact exec_inv _ (hs.withPort _) ht
    · exact (reservedOpcode_stays _ _).next_inv (hs.withPort _) ht
  · exact (applyInput_stays _).next_inv (hs.withPort _) ht
  · exact idleTurn_inv (hs.withPort _) ht
  · exact idleTurn_inv hs ht

/-- What arrives at a block that is stuck in a call leaves the invariant. -/
theorem stuckInput_inv (i : Input) : Act.Stays State.Inv (stuckInput i) := by
  cases i with
  | cmd r op =>
    refine (issue_leads fun _ h => { h with }).bind fun _ => .forget ?_
    split
    · exact .update fun s h => { h with }
    · exact .update fun s h => { h with }
    · exact .pure fun _ => id
  | wr a b => exact produceByte_leads fun _ ha h => { h with fb := Memory.wf_write b ha h.fb }
  | policy p => exact .update fun s h => { h with }
  | reset v => exact .update fun s _ => s.resetTo_inv v
  | answer k => exact .pure fun _ => id
  | putOff => exact .pure fun _ => id

theorem stuckStep_inv {s t : State} (hs : s.Inv) (ht : stuckStep s = .next t) : t.Inv := by
  unfold stuckStep at ht
  split at ht
  · exact (stuckInput_inv _).next (hs.withPort _) ht
  · cases ht; exact hs.withPort _
  · cases ht; exact hs

/-- Settles O54: a stuck block only takes an input, and any other block with the invariant is between operations, so that
a step runs one whole operation. -/
theorem stepKeepsTheInvariant : Obligations.StepKeepsTheInvariant := by
  intro s t hs ht
  unfold step at ht
  split at ht
  · exact stuckStep_inv hs ht
  · have hm : s.In .idle := hs.mid (by simpa using ‹¬ s.inFlight.isSome›)
    rw [hs.ordered] at ht
    dsimp only at ht
    rw [if_pos hm.unit] at ht
    exact idleStep_inv hm ht

/-- Settles O53. -/
theorem resetStateMeetsTheInvariant : Obligations.ResetStateMeetsTheInvariant where
  fb := rfl
  lb := by simp [State.reset]
  hdr := rfl
  com := rfl
  lock := by decide
  init := by decide
  rest _ := rfl
  ordered := rfl

end Sys2Proof.Machine
end

section
/-! SUPPORT. Where a step begins. -/

namespace Sys2Proof.Machine

variable {s : State}

/-- At an idle block that is in no call and is handed no instruction, a step is the step of an idle block. -/
theorem step_idle (hc : s.inFlight = none) (ho : s.ordered = none) (hu : s.seq.unit = .idle) : step s = idleStep s := by
  simp [step, hc, ho, hu]

/-- With the sequencer inside a unit, a step is what is left of that unit. -/
theorem step_unit (hc : s.inFlight = none) (ho : s.ordered = none) (hu : s.seq.unit ≠ .idle) :
    step s = unitStep s := by
  simp [step, hc, ho, hu]

/-- A block that is handed words takes them. -/
theorem step_ordered {c : Code} (hc : s.inFlight = none) (ho : s.ordered = some c) :
    step s = orderedStep c { s with ordered := none } := by
  simp [step, hc, ho]

/-- Settles O6: the step of an idle block decodes the command at the head of the port. -/
theorem stepRunsTheCommandAtThePort : Obligations.StepRunsTheCommandAtThePort := by
  intro s r op rest i hc ho hu hp hd
  rw [step_idle hc ho hu, idleStep, hp]
  simp only [hd]

/-- Settles O7: the words handed over are decoded, whatever the decoder answers. -/
theorem stepRunsTheInstructionHandedOver : Obligations.StepRunsTheInstructionHandedOver := by
  intro s c hc ho
  rw [step_ordered hc ho, orderedStep]
  exact ⟨fun i hd => by rw [hd], fun e hd => by rw [hd]⟩

/-- Settles O52: each value stands in the literal of the reset state. -/
theorem resetStateIsAsSpecified : Obligations.ResetStateIsAsSpecified := ⟨rfl, rfl, rfl, rfl, rfl, rfl⟩

end Sys2Proof.Machine
end

section
/-! SUPPORT. A refresh from its command to the grant of the lock. -/

namespace Sys2Proof.Machine

variable {s : State} {r : Req}

/-- Actions that end alike have the same outcome. -/
theorem Act.outcome_congr {x y : Act Unit} {s t : State} (h : x s = y t) : x.outcome s = y.outcome t := by
  unfold Act.outcome; rw [h]

/-- A REFRESH during INIT is refused. -/
theorem exec_refresh_refused (h : s.seq.unit = .init ∨ s.pstate = .initializing) :
    exec (.refresh r) s = .refused .commandDuringInit := by
  have hr : requestRefresh r s = .error (.refused .commandDuringInit) s := Act.bind_error (issue_refused h)
  show Act.outcome _ s = _
  unfold Act.outcome
  rw [Act.bind_error hr]

/-- The state in which a REFRESH that meets no other request has just got the free lock. -/
def State.grantedAlone (s : State) (r : Req) : State :=
  { s with
    lock := .held r
    caller := r
    waitq := []
    arb := s.arb.drop 1
    during := s.during.tail
    trace := s.trace ++ refreshOpening r }

/-- With nothing scheduled before the next event, the turn before a grant only uses up that slot. -/
theorem openTurn_headD_nil (h : s.during.headD [] = []) :
    openTurn s = .ok false { s with during := s.during.tail } := by
  cases hd : s.during with
  | nil => rw [openTurn_quiet hd]; cases s; cases hd; rfl
  | cons slot later =>
    rw [hd] at h
    obtain rfl : slot = [] := h
    exact openTurn_pause hd

/-- With nothing scheduled before the next event, the block serves whoever waits. -/
theorem serve_headD_nil (h : s.during.headD [] = []) : serve s = grantAndRun { s with during := s.during.tail } :=
  Act.bind_ok (openTurn_headD_nil h)

/-- With the lock free and a REFRESH chosen, its body runs. -/
theorem grantAndRun_refresh (hl : s.lock = .free) (hw : s.waitq[s.arb.get 0 % s.waitq.length]? = some (r, .refresh)) :
    grantAndRun s = refreshBody r
      { s with
        lock := .held r
        caller := r
        waitq := s.waitq.eraseIdx (s.arb.get 0 % s.waitq.length)
        arb := s.arb.drop 1
        trace := s.trace ++ [.acq r] } := Act.bind_ok (grantLock_free hl hw)

/-- With the lock held, nothing runs. -/
theorem grantAndRun_held (hl : s.lock ≠ .free) : grantAndRun s = .ok () s := Act.bind_ok (grantLock_held hl)

/-- A REFRESH before whose next event nothing is scheduled joins the waiting requests, and the lock is granted if it is
free. -/
theorem exec_refresh_headD_nil (hd : s.during.headD [] = []) (hu : s.seq.unit ≠ .init)
    (hp : s.pstate ≠ .initializing) :
    exec (.refresh r) s = grantAndRun.outcome
      { s with
        waitq := s.waitq ++ [(r, .refresh)]
        during := s.during.tail
        trace := s.trace ++ [.cmd r 0b010#3] } :=
  Act.outcome_congr ((Act.bind_ok (requestRefresh_accepted hu hp)).trans (serve_headD_nil hd))

/-- A REFRESH that finds the lock free and nobody waiting is granted the lock, and its body runs. -/
theorem exec_refresh_free (hd : s.during.headD [] = []) (hu : s.seq.unit ≠ .init) (hp : s.pstate ≠ .initializing)
    (hl : s.lock = .free) (hw : s.waitq = []) :
    exec (.refresh r) s = (refreshBody r).outcome (s.grantedAlone r) := by
  rw [exec_refresh_headD_nil hd hu hp]
  refine Act.outcome_congr ((grantAndRun_refresh (r := r) ?_ ?_).trans ?_)
  · exact hl
  · simp [hw, Nat.mod_one]
  · simp [State.grantedAlone, refreshOpening, hw, Nat.mod_one]

/-- A REFRESH that finds the lock held only waits. -/
theorem exec_refresh_held (hd : s.during.headD [] = []) (hu : s.seq.unit ≠ .init) (hp : s.pstate ≠ .initializing)
    (hl : s.lock ≠ .free) :
    exec (.refresh r) s = .next
      { s with
        waitq := s.waitq ++ [(r, .refresh)]
        during := s.during.tail
        trace := s.trace ++ [.cmd r 0b010#3] } := by
  rw [exec_refresh_headD_nil hd hu hp]
  exact Act.outcome_ok (grantAndRun_held hl)

end Sys2Proof.Machine
end

section
/-! SUPPORT. Nothing but the controller writes the power state (10_state.md R24). -/

namespace Sys2Proof.Machine

variable {p : PState}

/-- Nothing arrives, and the power state is `p`. -/
def State.QuietAt (p : PState) (s : State) : Prop := s.Quiet ∧ s.pstate = p

theorem envTurn_keeps_pstate : Act.Keeps (State.QuietAt p) envTurn := by
  intro s h
  unfold Act.final
  rwa [envTurn_quiet h.1]

theorem ctlSet_keeps_pstate (l : Line) (v : Bool) : Act.Keeps (State.QuietAt p) (ctlSet l v) := by
  refine afterTurn_keeps envTurn_keeps_pstate fun s h => ?_
  unfold Act.final
  by_cases ha : s.ctlAnswers.get 0 = .never
  · rwa [ctlSetNow_never ha]
  · rwa [ctlSetNow_answers ha]

theorem tx_keeps_pstate (bytes : List Byte) : Act.Keeps (State.QuietAt p) (tx bytes) := by
  refine afterTurn_keeps envTurn_keeps_pstate fun s h => ?_
  unfold Act.final
  cases ha : s.txAnswers.get 0 with
  | ok => rwa [txNow_ok ha]
  | fail n => rwa [txNow_fail ha]
  | never => rwa [txNow_never ha]

theorem wait_keeps_pstate (d : Delay) : Act.Keeps (State.QuietAt p) (wait d) := by
  refine afterTurn_keeps envTurn_keeps_pstate fun s h => ?_
  unfold Act.final
  cases ha : s.waitAnswers.get 0 with
  | true => rwa [waitNow_ends ha]
  | false => rwa [waitNow_never ha]

theorem rd_keeps_pstate (a : Nat) : Act.Keeps (State.QuietAt p) (rd a) := by
  refine afterTurn_keeps envTurn_keeps_pstate fun s h => ?_
  unfold Act.final
  by_cases hin : a + 3 < Config.fbBytes
  · cases ha : s.rdAnswers.get 0 with
    | true => rwa [rdNow_returns hin ha]
    | false => rwa [rdNow_never hin ha]
  · rwa [rdNow_outside hin]

theorem rowParts_keep_pstate (p : PState) (y : Nat) : Act.RowParts (fun _ => Act.Keeps (State.QuietAt p)) y where
  pure := .pure
  bind := .bind
  rd _ := rd_keeps_pstate _
  setPxi _ := .update fun _ => id
  sample _ := .update fun _ => id
  dropSamples := .update fun _ => id
  packLine := .update fun _ => id

theorem lineParts_keep_pstate (p : PState) : Act.LineParts fun _ => Act.Keeps (State.QuietAt p) where
  pure := .pure
  bind := .bind
  chipSelect _ := ctlSet_keeps_pstate _ _
  tx := tx_keeps_pstate
  gap := wait_keeps_pstate _
  grant _ := id
  encode n := (rowParts_keep_pstate p n).encodeRow
  readLb := .read _
  readHdr := .read _
  readResult := .read _
  readPolicyS := .read _
  setStep _ := .update fun _ => id
  setResult _ := .update fun _ => id
  close _ := .update fun _ => id
  header _ := .update fun _ => id
  openLine _ := .update fun _ => id

theorem finishRefresh_keeps_pstate (r : Req) (st : Status) : Act.Keeps (State.QuietAt p) (finishRefresh r st) :=
  .bind (envTurn_keeps_pstate.bind fun _ => .bind (.update fun _ => id) fun _ => .update fun _ => id) fun _ =>
    envTurn_keeps_pstate.bind fun _ => .update fun _ => id

theorem refreshBody_keeps_pstate (r : Req) : Act.Keeps (State.QuietAt p) (refreshBody r) := by
  refine .bind (.update fun _ => id) fun _ => .bind (.read _) fun q => ?_
  split
  · exact .stop _
  · split
    · exact finishRefresh_keeps_pstate r _
    · exact .bind ((lineParts_keep_pstate p).lineLoop _) fun st => finishRefresh_keeps_pstate r st

theorem exec_refresh_pstate {s t : State} {r : Req} (hq : s.Quiet) (hw : s.waitq = [])
    (ht : exec (.refresh r) s = .next t) : t.pstate = s.pstate := by
  by_cases hi : s.seq.unit = .init ∨ s.pstate = .initializing
  · rw [exec_refresh_refused hi] at ht; cases ht
  obtain ⟨hu, hp⟩ := not_or.1 hi
  have hd : s.during.headD [] = [] := by rw [hq]; rfl
  by_cases hl : s.lock = .free
  · rw [exec_refresh_free hd hu hp hl hw] at ht
    exact ((refreshBody_keeps_pstate r).next ⟨congrArg List.tail hq, rfl⟩ ht).2
  · rw [exec_refresh_held hd hu hp hl] at ht
    cases ht
    rfl

/-- Settles O57: the parts of which each of the five operations is built keep `PSTATE` when nothing arrives. -/
theorem onlyTheControllerChangesThePowerState : Obligations.OnlyTheControllerChangesThePowerState := by
  intro i s t hq hw hi ht
  have hs : s.QuietAt s.pstate := ⟨hq, rfl⟩
  have close {x : Act Unit} (ho : x.outcome s = .next t) (hx : Act.Keeps (State.QuietAt s.pstate) x) :
      t.pstate = s.pstate := (hx.next hs ho).2
  rcases hi with ⟨r, rfl⟩ | ⟨line, rfl⟩ | ⟨y, rfl⟩ | rfl | rfl
  · exact exec_refresh_pstate hq hw ht
  · exact close ht (((lineParts_keep_pstate _).sendLine line).bind fun _ => .update fun _ => id)
  · exact close ht (rowParts_keep_pstate _ y).encodeRow
  · cases ht; rfl
  · exact close ht ((tx_keeps_pstate _).bind fun _ => .update fun _ => id)

end Sys2Proof.Machine
end

section
/-! SUPPORT. A refresh after its grant does not look at the `POLICY` input: two runs side by side (10_state.md R31). -/

namespace Sys2Proof.Machine

variable {α β : Type} {p : Policy}

/-- `u` is the quiet state `t`, whose refresh goes by the policy `p`, but for the level of `POLICY` and changes of it
still to come. -/
inductive State.Shadows (p : Policy) (t : State) : State → Prop where
  | mk (q : Policy) (d : List (List Input)) (quiet : t.during = []) (sampled : t.policyS = p)
      (policies : (d.all fun slot => slot.all Input.isPolicy) = true) :
      Shadows p t { t with policy := q, during := d }

/-- Two ends of an action: both well with one result, or both stopped for one reason, in states that differ in the
`POLICY` input only. -/
inductive Act.Alike (p : Policy) : EStateM.Result Stop State α → EStateM.Result Stop State α → Prop where
  | ok {a : α} {t u : State} (h : t.Shadows p u) : Alike p (.ok a t) (.ok a u)
  | error {e : Stop} {t u : State} (h : t.Shadows p u) : Alike p (.error e t) (.error e u)

/-- The action goes alike with and without changes of the `POLICY` input. -/
def Act.Blind (p : Policy) (x : Act α) : Prop := ∀ t u : State, t.Shadows p u → Act.Alike p (x t) (x u)

theorem Act.Blind.pure (a : α) : Act.Blind p (pure a : Act α) := fun _ _ h => .ok h

theorem Act.Blind.stop (e : Stop) : Act.Blind p (Act.stop e : Act α) := fun _ _ h => .error h

theorem Act.Blind.bind {x : Act α} {f : α → Act β} (hx : Act.Blind p x) (hf : ∀ a, Act.Blind p (f a)) :
    Act.Blind p (x >>= f) := by
  intro t u h
  have hxu := hx t u h
  cases hxt : x t with
  | ok a t' =>
    rw [hxt] at hxu
    cases hu : x u with
    | ok b u' =>
      rw [hu] at hxu
      obtain ⟨h'⟩ := hxu
      rw [Act.bind_ok hxt, Act.bind_ok hu]
      exact hf a t' u' h'
    | error e u' => rw [hu] at hxu; cases hxu
  | error e t' =>
    rw [hxt] at hxu
    cases hu : x u with
    | ok b u' => rw [hu] at hxu; cases hxu
    | error e u' =>
      rw [hu] at hxu
      obtain _ | ⟨h'⟩ := hxu
      rw [Act.bind_error hxt, Act.bind_error hu]
      exact .error h'

/-- A read of anything but the level of `POLICY` and what is scheduled. -/
theorem Act.Blind.read {g : State → α} (hg : ∀ t q d, g { t with policy := q, during := d } = g t) :
    Act.Blind p (Act.read g) := by
  rintro t _ ⟨q, d, hq, hp, hd⟩
  rw [Act.read_apply, Act.read_apply, hg t q d]
  exact .ok (.mk q d hq hp hd)

/-- An update that neither looks at nor writes the level of `POLICY`, the sampled policy and what is scheduled. -/
theorem Act.Blind.update {g : State → State} (hd : ∀ t, (g t).during = t.during)
    (hp : ∀ t, (g t).policyS = t.policyS)
    (hg : ∀ t q d, g { t with policy := q, during := d } = { g t with policy := q, during := d }) :
    Act.Blind p (Act.update g) := by
  rintro t _ ⟨q, d, hq, hs, hpol⟩
  rw [Act.update_apply, Act.update_apply, hg t q d]
  exact .ok (.mk q d ((hd t).trans hq) ((hp t).trans hs) hpol)

/-- A slot of changes of `POLICY` changes the level and nothing else. -/
theorem applyInputs_policies : ∀ (slot : List Input) (s : State), slot.all Input.isPolicy = true →
    ∃ q, applyInputs slot s = .ok () { s with policy := q }
  | [], s, _ => ⟨s.policy, rfl⟩
  | .policy q :: slot, s, h => applyInputs_policies slot { s with policy := q } (by simpa [Input.isPolicy] using h)
  | .cmd _ _ :: _, _, h => by simp [Input.isPolicy] at h
  | .wr _ _ :: _, _, h => by simp [Input.isPolicy] at h
  | .reset _ :: _, _, h => by simp [Input.isPolicy] at h
  | .answer _ :: _, _, h => by simp [Input.isPolicy] at h
  | .putOff :: _, _, h => by simp [Input.isPolicy] at h

theorem envTurn_blind : Act.Blind p envTurn := by
  rintro t _ ⟨q, d, hq, hp, hd⟩
  rw [envTurn_quiet hq]
  cases d with
  | nil => exact .ok (.mk q [] hq hp rfl)
  | cons slot later =>
    simp only [List.all_cons, Bool.and_eq_true] at hd
    obtain ⟨q', hs⟩ := applyInputs_policies slot { t with policy := q, during := later } hd.1
    have hturn : envTurn { t with policy := q, during := slot :: later } =
        .ok () { t with policy := q', during := later } := hs
    rw [hturn]
    exact .ok (.mk q' later hq hp hd.2)

theorem ctlSet_blind (l : Line) (v : Bool) : Act.Blind p (ctlSet l v) := by
  refine envTurn_blind.bind fun _ => ?_
  rintro t _ ⟨q, d, hq, hp, hd⟩
  by_cases ha : t.ctlAnswers.get 0 = .never
  · rw [ctlSetNow_never ha, ctlSetNow_never (s := { t with policy := q, during := d }) ha]
    exact .error (.mk q d hq hp hd)
  · rw [ctlSetNow_answers ha, ctlSetNow_answers (s := { t with policy := q, during := d }) ha]
    exact .ok (.mk q d hq hp hd)

theorem tx_blind (bytes : List Byte) : Act.Blind p (tx bytes) := by
  refine envTurn_blind.bind fun _ => ?_
  rintro t _ ⟨q, d, hq, hp, hd⟩
  cases ha : t.txAnswers.get 0 with
  | ok =>
    rw [txNow_ok ha, txNow_ok (s := { t with policy := q, during := d }) ha]
    exact .ok (.mk q d hq hp hd)
  | fail n =>
    rw [txNow_fail ha, txNow_fail (s := { t with policy := q, during := d }) ha]
    exact .ok (.mk q d hq hp hd)
  | never =>
    rw [txNow_never ha, txNow_never (s := { t with policy := q, during := d }) ha]
    exact .error (.mk q d hq hp hd)

theorem wait_blind (w : Delay) : Act.Blind p (wait w) := by
  refine envTurn_blind.bind fun _ => ?_
  rintro t _ ⟨q, d, hq, hp, hd⟩
  cases ha : t.waitAnswers.get 0 with
  | true =>
    rw [waitNow_ends ha, waitNow_ends (s := { t with policy := q, during := d }) ha]
    exact .ok (.mk q d hq hp hd)
  | false =>
    rw [waitNow_never ha, waitNow_never (s := { t with policy := q, during := d }) ha]
    exact .error (.mk q d hq hp hd)

theorem rd_blind (a : Nat) : Act.Blind p (rd a) := by
  refine envTurn_blind.bind fun _ => ?_
  rintro t _ ⟨q, d, hq, hp, hd⟩
  by_cases hin : a + 3 < Config.fbBytes
  · cases ha : t.rdAnswers.get 0 with
    | true =>
      rw [rdNow_returns hin ha, rdNow_returns (s := { t with policy := q, during := d }) hin ha]
      exact .ok (.mk q d hq hp hd)
    | false =>
      rw [rdNow_never hin ha, rdNow_never (s := { t with policy := q, during := d }) hin ha]
      exact .error (.mk q d hq hp hd)
  · rw [rdNow_outside hin, rdNow_outside hin]
    exact .error (.mk q d hq hp hd)

theorem rowParts_blind (p : Policy) (y : Nat) : Act.RowParts (fun _ => Act.Blind p) y where
  pure := .pure
  bind := .bind
  rd _ := rd_blind _
  setPxi _ := .update (fun _ => rfl) (fun _ => rfl) fun _ _ _ => rfl
  sample _ := .update (fun _ => rfl) (fun _ => rfl) fun _ _ _ => rfl
  dropSamples := .update (fun _ => rfl) (fun _ => rfl) fun _ _ _ => rfl
  packLine := .update (fun _ => rfl) (fun _ => rfl) fun _ _ _ => rfl

theorem lineParts_blind (p : Policy) : Act.LineParts fun _ => Act.Blind p where
  pure := .pure
  bind := .bind
  chipSelect _ := ctlSet_blind _ _
  tx := tx_blind
  gap := wait_blind _
  grant := by
    rintro t _ ⟨q, d, hq, hp, hd⟩
    exact .ok (.mk q d hq hp hd)
  encode n := (rowParts_blind p n).encodeRow
  readLb := .read fun _ _ _ => rfl
  readHdr := .read fun _ _ _ => rfl
  readResult := .read fun _ _ _ => rfl
  readPolicyS := .read fun _ _ _ => rfl
  setStep _ := .update (fun _ => rfl) (fun _ => rfl) fun _ _ _ => rfl
  setResult _ := .update (fun _ => rfl) (fun _ => rfl) fun _ _ _ => rfl
  close _ := .update (fun _ => rfl) (fun _ => rfl) fun _ _ _ => rfl
  header _ := .update (fun _ => rfl) (fun _ => rfl) fun _ _ _ => rfl
  openLine _ := .update (fun _ => rfl) (fun _ => rfl) fun _ _ _ => rfl

theorem finishRefresh_blind (r : Req) (st : Status) : Act.Blind p (finishRefresh r st) :=
  .bind (envTurn_blind.bind fun _ => .bind (.update (fun _ => rfl) (fun _ => rfl) fun _ _ _ => rfl) fun _ =>
    .update (fun _ => rfl) (fun _ => rfl) fun _ _ _ => rfl) fun _ =>
    envTurn_blind.bind fun _ => .update (fun _ => rfl) (fun _ => rfl) fun _ _ _ => rfl

/-- From the moment at which the policy is sampled a refresh goes alike, whatever changes of it are scheduled. -/
theorem refreshBody_alike {s : State} (r : Req) (hq : s.during = []) {d : List (List Input)}
    (hd : (d.all fun slot => slot.all Input.isPolicy) = true) :
    Act.Alike s.policy (refreshBody r s) (refreshBody r { s with during := d }) := by
  unfold refreshBody
  rw [Act.update_bind_apply, Act.update_bind_apply]
  refine Act.Blind.bind (.read fun _ _ _ => rfl) (fun q => ?_) _ _ (.mk s.policy d hq rfl hd)
  split
  · exact .stop _
  · split
    · exact finishRefresh_blind r _
    · exact ((lineParts_blind _).lineLoop _).bind fun st => finishRefresh_blind r st

/-- Where one of two runs that go alike gives a next state, so does the other. -/
theorem Act.Alike.next {x : Act Unit} {s s' t : State} (h : Act.Alike p (x s) (x s')) (ht : x.outcome s = .next t) :
    ∃ u, x.outcome s' = .next u ∧ t.Shadows p u := by
  unfold Act.outcome at ht ⊢
  cases h' : x s with
  | ok a v =>
    rw [h'] at h ht
    generalize x s' = y at h ⊢
    obtain ⟨hs⟩ := h
    cases ht
    exact ⟨_, rfl, hs⟩
  | error e v =>
    rw [h'] at h ht
    generalize x s' = y at h ⊢
    obtain _ | ⟨hs⟩ := h
    cases e with
    | stuck => cases ht; exact ⟨_, rfl, hs⟩
    | reset => cases ht; exact ⟨_, rfl, hs⟩
    | refused r => cases ht
    | fault f => cases ht

/-- Settles O51: both runs reach the grant with the same `POLICY`, and from there on they go alike. -/
theorem policyIsSampledOncePerRefresh : Obligations.PolicyIsSampledOncePerRefresh := by
  intro s t r later hd hpol hu hl hw ht
  by_cases hp : s.pstate = .initializing
  · rw [exec_refresh_refused (s := { s with during := [] }) (.inr hp)] at ht; cases ht
  have hni : s.seq.unit ≠ .init := by rw [hu]; decide
  rw [exec_refresh_free (s := { s with during := [] }) rfl hni hp hl hw] at ht
  obtain ⟨u, hu', hs⟩ := (refreshBody_alike r rfl hpol).next ht
  refine ⟨?_, u, ?_, ?_⟩
  · obtain ⟨q, d, -, hps, -⟩ := hs
    exact hps
  · rw [exec_refresh_free (by rw [hd]; rfl) hni hp hl hw, ← hu']
    simp [State.grantedAlone, hd]
  · obtain ⟨q, d, hq, -, -⟩ := hs
    cases t
    cases hq
    rfl

end Sys2Proof.Machine
end

section
/-! SUPPORT. What an operation does when nothing arrives and every answer is `ok`: the state each part of it reaches,
and what it leaves unchanged. -/

namespace Sys2Proof.Machine

variable {s t v : State}

/-! ## Answered calls as updates of the state -/

/-- A control-line call answered `ok`. -/
def State.didSet (s : State) (l : Line) (b : Bool) : State :=
  { s with ctl := s.ctl.set l b, ctlAnswers := s.ctlAnswers.drop 1, trace := s.trace ++ [.set l b true] }

/-- A transport call answered `ok`. -/
def State.didTx (s : State) (bytes : List Byte) : State :=
  { s with txAnswers := s.txAnswers.drop 1, trace := s.trace ++ [.tx bytes .ok] }

/-- A wait that ended. -/
def State.didWait (s : State) (d : Delay) : State :=
  { s with waitAnswers := s.waitAnswers.drop 1, trace := s.trace ++ [.wait d] }

theorem ctlSet_ok {l : Line} {b : Bool} (hq : s.Quiet) (h : s.ctlAnswers.get 0 = .ok) :
    ctlSet l b s = .ok true (s.didSet l b) := by
  rw [ctlSet_answers hq (by rw [h]; nofun), h]
  rfl

theorem tx_did {bytes : List Byte} (hq : s.Quiet) (h : s.txAnswers.get 0 = .ok) :
    tx bytes s = .ok true (s.didTx bytes) :=
  tx_ok hq h

theorem wait_did {d : Delay} (hq : s.Quiet) (h : s.waitAnswers.get 0 = true) : wait d s = .ok () (s.didWait d) :=
  wait_ends hq h

/-- From `s` the block went on to `t` with the events `es` and nothing arriving: what an operation that is not the
controller's leaves unchanged, answers that stay `ok` for ever among it. -/
structure State.GoesTo (s : State) (es : List Event) (t : State) : Prop where
  during : t.during = s.during
  lines : s.LinesAnswerOk → t.LinesAnswerOk
  tx : (∀ n, s.txAnswers.get n = .ok) → ∀ n, t.txAnswers.get n = .ok
  grants : (∀ n, s.grants.get n = true) → ∀ n, t.grants.get n = true
  fb : t.fb = s.fb
  pstate : t.pstate = s.pstate
  inFlight : t.inFlight = s.inFlight
  trace : t.trace = s.trace ++ es

namespace State.GoesTo

theorem trans {ds es : List Event} (h : s.GoesTo ds t) (h' : t.GoesTo es v) : s.GoesTo (ds ++ es) v where
  during := h'.during.trans h.during
  lines := h'.lines ∘ h.lines
  tx := h'.tx ∘ h.tx
  grants := h'.grants ∘ h.grants
  fb := h'.fb.trans h.fb
  pstate := h'.pstate.trans h.pstate
  inFlight := h'.inFlight.trans h.inFlight
  trace := by rw [h'.trace, h.trace, List.append_assoc]

theorem quiet {es : List Event} (h : s.GoesTo es t) (hq : s.Quiet) : t.Quiet := h.during.trans hq

theorem didSet (s : State) (l : Line) (b : Bool) : s.GoesTo [.set l b true] (s.didSet l b) where
  during := rfl
  lines h := { h with ctl := fun n => (Script.get_drop _ 1 n).trans (h.ctl _) }
  tx := id
  grants := id
  fb := rfl
  pstate := rfl
  inFlight := rfl
  trace := rfl

theorem didTx (s : State) (bytes : List Byte) : s.GoesTo [.tx bytes .ok] (s.didTx bytes) where
  during := rfl
  lines h := { h with }
  tx h n := (Script.get_drop _ 1 n).trans (h _)
  grants := id
  fb := rfl
  pstate := rfl
  inFlight := rfl
  trace := rfl

theorem didWait (s : State) (d : Delay) : s.GoesTo [.wait d] (s.didWait d) where
  during := rfl
  lines h := { h with wait := fun n => (Script.get_drop _ 1 n).trans (h.wait _) }
  tx := id
  grants := id
  fb := rfl
  pstate := rfl
  inFlight := rfl
  trace := rfl

theorem setStep (s : State) (p : SeqStep) : s.GoesTo [] (s.setStep p) :=
  ⟨rfl, fun h => { h with }, id, id, rfl, rfl, rfl, (List.append_nil _).symm⟩

theorem setResult (s : State) (st : Option Status) : s.GoesTo [] (s.setResult st) :=
  ⟨rfl, fun h => { h with }, id, id, rfl, rfl, rfl, (List.append_nil _).symm⟩

end State.GoesTo

/-- Nothing arrives and every answer is `ok`. -/
structure State.AllOk (s : State) : Prop where
  quiet : s.Quiet
  lines : s.LinesAnswerOk
  tx : ∀ n, s.txAnswers.get n = .ok
  grants : ∀ n, s.grants.get n = true

theorem State.AllOk.of_goesTo {es : List Event} (h : s.AllOk) (hg : s.GoesTo es t) : t.AllOk :=
  ⟨hg.quiet h.quiet, hg.lines h.lines, hg.tx h.tx, hg.grants h.grants⟩

theorem State.AllOk.ctlSet {l : Line} {b : Bool} (h : s.AllOk) : ctlSet l b s = .ok true (s.didSet l b) :=
  ctlSet_ok h.quiet (h.lines.ctl 0)

theorem State.AllOk.tx_did {bytes : List Byte} (h : s.AllOk) : Machine.tx bytes s = .ok true (s.didTx bytes) :=
  Machine.tx_did h.quiet (h.tx 0)

theorem State.AllOk.wait_did {d : Delay} (h : s.AllOk) : wait d s = .ok () (s.didWait d) :=
  Machine.wait_did h.quiet (h.lines.wait 0)

/-! ## The frame of a line -/

/-- The deassert of a line answered `ok`. -/
def State.deasserted (s : State) : State := (s.didSet .chipSelect false).setResult none

/-- The payload call and the deassert answered `ok`. -/
def State.payloadSent (s : State) : State := ((s.didTx s.lb).setStep .csDeassert).deasserted

/-- The header call and what follows it answered `ok`. -/
def State.headerSent (s : State) : State := ((s.didTx s.hdr).setStep .txPayload).payloadSent

/-- The assert and what follows it answered `ok`. -/
def State.frameSent (s : State) : State := ((s.didSet .chipSelect true).setStep .txHeader).headerSent

/-- The line buffer granted and the header of a line laid out (41_line_framer.md R122, R123). -/
def State.buffered (s : State) (line : BitVec 16) : State :=
  { s with grants := s.grants.drop 1, hdr := headerBytes line }.setStep .csAssert

/-- The delay after a line. -/
def State.gapWaited (s : State) : State := (s.setStep .gap).didWait .interLine

theorem State.GoesTo.deasserted (s : State) : s.GoesTo [.set .chipSelect false true] s.deasserted :=
  (State.GoesTo.didSet s _ _).trans (.setResult _ _)

theorem State.GoesTo.payloadSent (s : State) :
    s.GoesTo [.tx s.lb .ok, .set .chipSelect false true] s.payloadSent :=
  (State.GoesTo.didTx s _).trans ((State.GoesTo.setStep _ _).trans (.deasserted _))

theorem State.GoesTo.headerSent (s : State) :
    s.GoesTo [.tx s.hdr .ok, .tx s.lb .ok, .set .chipSelect false true] s.headerSent :=
  (State.GoesTo.didTx s _).trans ((State.GoesTo.setStep _ _).trans (.payloadSent _))

theorem State.GoesTo.frameSent (s : State) :
    s.GoesTo [.set .chipSelect true true, .tx s.hdr .ok, .tx s.lb .ok, .set .chipSelect false true] s.frameSent :=
  (State.GoesTo.didSet s _ _).trans ((State.GoesTo.setStep _ _).trans (.headerSent _))

theorem State.GoesTo.buffered (s : State) (line : BitVec 16) : s.GoesTo [] (s.buffered line) :=
  ⟨rfl, fun h => { h with }, id, fun h n => (Script.get_drop _ 1 n).trans (h _), rfl, rfl, rfl,
    (List.append_nil _).symm⟩

theorem State.GoesTo.gapWaited (s : State) : s.GoesTo [.wait .interLine] s.gapWaited :=
  (State.GoesTo.setStep s _).trans (.didWait _ _)

/-- With the registers those of line `y`, its frame and the delay are sent (43_refresh_coordinator.md R174). -/
theorem State.GoesTo.frameEvents {m : Memory} {y : Nat} (hh : s.hdr = headerBytes (BitVec.ofNat 16 y))
    (hl : s.lb = rowPayload m y) : s.GoesTo (frameEvents m y) s.frameSent.gapWaited := by
  rw [Machine.frameEvents, ← hh, ← hl]
  exact (State.GoesTo.frameSent s).trans (.gapWaited _)

/-- The same from the buffer check on. -/
theorem State.GoesTo.lineFrame {m : Memory} (y : Nat) (hl : s.lb = rowPayload m y) :
    s.GoesTo (Machine.frameEvents m y) (s.buffered (BitVec.ofNat 16 y)).frameSent.gapWaited :=
  (State.GoesTo.buffered s _).trans (.frameEvents rfl hl)

namespace State.AllOk

variable (h : s.AllOk)
include h

theorem deassertLine (hr : s.result = some .ok) : deassertLine s = .ok .ok s.deasserted := by
  unfold Machine.deassertLine
  rw [Act.bind_ok h.ctlSet, Act.read_bind_apply, Act.update_bind_apply, show (s.didSet _ _).result = _ from hr]
  rfl

theorem closeLine : closeLine true true s = .ok .ok (s.setStep .csDeassert).deasserted := by
  have hc : ((s.setStep .csDeassert).setResult (some .ok)).AllOk :=
    h.of_goesTo ((State.GoesTo.setStep s _).trans (.setResult _ _))
  exact hc.deassertLine rfl

theorem sendPayload : sendPayload s = .ok .ok s.payloadSent := by
  unfold Machine.sendPayload
  rw [Act.read_bind_apply, Act.bind_ok h.tx_did]
  exact (h.of_goesTo (.didTx s _)).closeLine

theorem sendHeader : sendHeader s = .ok .ok s.headerSent := by
  unfold Machine.sendHeader
  rw [Act.read_bind_apply, Act.bind_ok h.tx_did]
  exact (h.of_goesTo ((State.GoesTo.didTx s _).trans (.setStep _ _))).sendPayload

theorem assertLine : assertLine s = .ok .ok s.frameSent := by
  unfold Machine.assertLine
  rw [Act.bind_ok h.ctlSet]
  exact (h.of_goesTo ((State.GoesTo.didSet s _ _).trans (.setStep _ _))).sendHeader

/-- SEND_LINE of a line inside the panel sends its frame. -/
theorem sendLine {line : BitVec 16} (hl : line.toNat < 240) :
    sendLine line s = .ok .ok (s.buffered line).frameSent := by
  unfold Machine.sendLine
  rw [if_neg (Nat.not_le.2 hl), Act.bind_ok (grantNow_apply s), h.grants 0]
  exact (h.of_goesTo (.buffered s line)).assertLine

/-- After what is left of a line went well comes the delay, and the loop goes on. -/
theorem goOn {x : Act Status} {es : List Event} (hx : x s = .ok .ok t) (hg : s.GoesTo es t) (rest : Act Status) :
    (x >>= fun st => afterLine st rest) s = rest t.gapWaited := by
  have ht : t.AllOk := h.of_goesTo hg
  rw [Act.bind_ok hx, afterLine, Act.read_bind_apply, if_neg (by simp [endsRefresh]), Act.update_bind_apply,
    Act.bind_ok (ht.of_goesTo (.setStep t _)).wait_did]
  rfl

end State.AllOk

/-! ## The reads of a line -/

theorem pixelAddr_eq (y x : Nat) : pixelAddr y x = 1600 * y + 4 * x := by
  simp only [pixelAddr, Config.stride]
  omega

/-- The columns from `x` on, by their numbers. -/
theorem coe_columns (x : Nat) :
    ((List.finRange Config.width).drop x >>= fun j => pure j.val) = (List.range 400).drop x := by
  rw [← List.map_coe_finRange_eq_range, ← List.map_drop, List.bind_eq_flatMap, List.map_eq_flatMap]
  rfl

theorem getLast?_columns {x : Nat} (hx : x < 400) : ((List.finRange Config.width).drop x).getLast? = some 399 := by
  rw [List.getLast?_drop, if_neg (by simpa using hx)]
  exact List.getLast?_eq_some_iff.2 ⟨_, List.finRange_succ_last⟩

/-- The state after the reads of row `y` from column `x` on and the packing of `LB`. -/
def State.encoded (s : State) (y x : Nat) : State :=
  { s with
    lb := rowPayload s.fb y
    px := []
    seq := { s.seq with pxi := 399 }
    rdAnswers := s.rdAnswers.drop (400 - x)
    trace := s.trace ++ (rowEvents s.fb y).drop x }

theorem encoded_lb (s : State) (y x : Nat) : (s.encoded y x).lb = rowPayload s.fb y := by rw [State.encoded]

theorem State.GoesTo.encoded (s : State) (y x : Nat) : s.GoesTo ((rowEvents s.fb y).drop x) (s.encoded y x) :=
  ⟨rfl, fun h => { h with rd := fun n => (Script.get_drop _ _ n).trans (h.rd _) }, id, id, rfl, rfl, rfl, rfl⟩

/-- ENCODE_ROW from a column on, the words before it sampled, when every read returns and nothing arrives. -/
theorem encodeFrom_quiet {y x : Nat} (hy : y < 240) (hx : x < 400) (hq : s.Quiet)
    (hr : ∀ n, n < 400 - x → s.rdAnswers.get n = true) (hpx : s.px = (rowWords s.fb y).take x) :
    encodeFrom y x s = .ok () (s.encoded y x) := by
  unfold encodeFrom
  rw [Act.bind_ok (readPixels_quiet hy _ s hq (by simpa using hr)), coe_columns, getLast?_columns hx, hpx]
  simp [State.packLine, State.encoded, rowPayload, rowWords, rowEvents, pixelAddr_eq, List.take_append_drop]

/-- ENCODE_ROW of a row, when every read returns and nothing arrives. -/
theorem encodeRow_quiet {y : Nat} (hy : y < 240) (hq : s.Quiet) (hr : ∀ n, n < 400 → s.rdAnswers.get n = true) :
    encodeRow y s = .ok () (State.encoded { s with px := [] } y 0) :=
  encodeFrom_quiet (s := { s with px := [] }) hy (by decide) hq hr rfl

/-! ## The line loop -/

theorem toNat_lineIndex (n : Fin 240) : (BitVec.ofNat 16 n).toNat < 240 := by
  rw [BitVec.toNat_ofNat, Nat.mod_eq_of_lt] <;> omega

/-- The state after line `n` of a refresh, every answer `ok` (43_refresh_coordinator.md R174). -/
def State.lineDone (s : State) (n : Fin 240) : State :=
  { s with
    lb := rowPayload s.fb n
    hdr := headerBytes (BitVec.ofNat 16 n)
    ctl := { s.ctl with chipSelect := false }
    seq := ⟨s.seq.unit, .gap, n, 399⟩
    px := []
    result := none
    ctlAnswers := s.ctlAnswers.drop 2
    txAnswers := s.txAnswers.drop 2
    rdAnswers := s.rdAnswers.drop 400
    waitAnswers := s.waitAnswers.drop 1
    grants := s.grants.drop 1
    trace := s.trace ++ lineEvents s.fb n }

theorem State.GoesTo.lineDone (s : State) (n : Fin 240) : s.GoesTo (lineEvents s.fb n) (s.lineDone n) where
  during := rfl
  lines h :=
    ⟨fun k => (Script.get_drop _ 2 k).trans (h.ctl _), fun k => (Script.get_drop _ 400 k).trans (h.rd _),
      fun k => (Script.get_drop _ 1 k).trans (h.wait _)⟩
  tx h k := (Script.get_drop _ 2 k).trans (h _)
  grants h k := (Script.get_drop _ 1 k).trans (h _)
  fb := rfl
  pstate := rfl
  inFlight := rfl
  trace := rfl

/-- What line `n` does, part by part, is what `lineDone` says. -/
theorem lineDone_eq (s : State) (n : Fin 240) :
    ((State.encoded { (s.setLn n).setStep .encode with px := [] } n 0).buffered
      (BitVec.ofNat 16 n)).frameSent.gapWaited = s.lineDone n := by
  simp [State.encoded, State.buffered, State.frameSent, State.headerSent, State.payloadSent, State.deasserted,
    State.gapWaited, State.didSet, State.didTx, State.didWait, State.setLn, State.setStep, State.setResult,
    State.lineDone, lineEvents, frameEvents, Ctl.set]

/-- One line of the loop, and the loop goes on. -/
theorem State.AllOk.lineLoop_cons (h : s.AllOk) (n : Fin 240) (ns : List (Fin 240)) :
    lineLoop (n :: ns) s = lineLoop ns (s.lineDone n) := by
  have h0 : ((s.setLn n).setStep .encode).AllOk := ⟨h.quiet, { h.lines with }, h.tx, h.grants⟩
  have h1 : (State.encoded { (s.setLn n).setStep .encode with px := [] } n 0).AllOk :=
    State.AllOk.of_goesTo ⟨h0.quiet, { h0.lines with }, h0.tx, h0.grants⟩ (.encoded _ n 0)
  rw [lineLoop, Act.update_bind_apply, Act.bind_ok (encodeRow_quiet n.isLt h0.quiet fun k _ => h0.lines.rd k),
    h1.goOn (h1.sendLine (toNat_lineIndex n)) ((State.GoesTo.buffered _ _).trans (.frameSent _)), lineDone_eq]

theorem State.AllOk.lineLoop (h : s.AllOk) (ns : List (Fin 240)) :
    Machine.lineLoop ns s = .ok .ok (ns.foldl State.lineDone s) := by
  induction ns generalizing s with
  | nil => rfl
  | cons n ns ih =>
    rw [h.lineLoop_cons, ih (h.of_goesTo (.lineDone s n))]
    rfl

theorem State.GoesTo.linesDone (ns : List (Fin 240)) (s : State) :
    s.GoesTo (ns.flatMap fun n => lineEvents s.fb n) (ns.foldl State.lineDone s) := by
  induction ns generalizing s with
  | nil => exact ⟨rfl, id, id, id, rfl, rfl, rfl, (List.append_nil _).symm⟩
  | cons n ns ih => exact (State.GoesTo.lineDone s n).trans (ih _)

/-! ## A refresh from any of its positions -/

/-- From every position inside a line, its registers fitting it, the line goes on to its end and the loop to the lines
after it. -/
theorem State.AllOk.loopFrom (h : s.AllOk) (hf : s.LineFits) : ∃ loop t, loopFrom s.seq = some loop ∧
    loop s = Machine.lineLoop (linesAfter s.seq.ln) t ∧ s.GoesTo (restOfLine s.fb s.seq) t := by
  unfold Machine.loopFrom restOfLine
  unfold State.LineFits at hf
  cases hs : s.seq.step with
  | encode =>
    rw [hs] at hf
    have h1 := h.of_goesTo (.encoded s s.seq.ln s.seq.pxi)
    refine ⟨_, ((s.encoded s.seq.ln s.seq.pxi).buffered (BitVec.ofNat 16 s.seq.ln)).frameSent.gapWaited, rfl,
      ?_, ?_⟩
    · rw [Act.bind_ok (encodeFrom_quiet s.seq.ln.isLt s.seq.pxi.isLt h.quiet (fun k _ => h.lines.rd k) hf)]
      exact h1.goOn (h1.sendLine (toNat_lineIndex _)) ((State.GoesTo.buffered _ _).trans (.frameSent _)) _
    · exact (State.GoesTo.encoded s _ _).trans (.lineFrame _ (encoded_lb s _ _))
  | csAssert =>
    rw [hs] at hf
    refine ⟨_, s.frameSent.gapWaited, rfl, h.goOn h.assertLine (.frameSent s) _, ?_⟩
    exact .frameEvents hf.1 hf.2
  | txHeader =>
    rw [hs] at hf
    refine ⟨_, s.headerSent.gapWaited, rfl, h.goOn h.sendHeader (.headerSent s) _, ?_⟩
    rw [frameEvents, ← hf.1, ← hf.2]
    exact (State.GoesTo.headerSent s).trans (.gapWaited _)
  | txPayload =>
    rw [hs] at hf
    refine ⟨_, s.payloadSent.gapWaited, rfl, h.goOn h.sendPayload (.payloadSent s) _, ?_⟩
    rw [frameEvents, ← hf]
    exact (State.GoesTo.payloadSent s).trans (.gapWaited _)
  | csDeassert =>
    rw [hs] at hf
    exact ⟨_, _, rfl, h.goOn (h.deassertLine hf) (.deasserted s) _,
      (State.GoesTo.deasserted s).trans (.gapWaited _)⟩
  | gap => exact ⟨_, _, rfl, Act.bind_ok h.wait_did, .didWait s _⟩
  | _ => rw [hs] at hf; exact hf.elim

end Sys2Proof.Machine
end

section
/-! SUPPORT. INIT and DETACH from any of their positions when nothing arrives and every answer is `ok`, and what a step
does with the sequencer inside a unit. -/

namespace Sys2Proof.Machine

variable {s : State}

/-! ## INIT -/

/-- The event of a step of INIT that goes well (42_display_controller.md R144). -/
def InitStep.event : InitStep → Event
  | .modeSelectLow => .set .comInversionModeSelect false true
  | .displayLow => .set .displayEnable false true
  | .settle => .wait .settle
  | .displayHigh => .set .displayEnable true true
  | .csAssert => .set .chipSelect true true
  | .allClear => .tx clearFrame .ok
  | .csDeassert => .set .chipSelect false true
  | .clearWait => .wait .clear

/-- The state after a step of INIT that went well. -/
def State.initStepDone (s : State) : InitStep → State
  | .modeSelectLow => s.didSet .comInversionModeSelect false
  | .displayLow => s.didSet .displayEnable false
  | .settle => s.didWait .settle
  | .displayHigh => s.didSet .displayEnable true
  | .csAssert => s.didSet .chipSelect true
  | .allClear => s.didTx clearFrame
  | .csDeassert => s.didSet .chipSelect false
  | .clearWait => s.didWait .clear

theorem State.GoesTo.initStepDone (s : State) (k : InitStep) : s.GoesTo [k.event] (s.initStepDone k) := by
  cases k with
  | settle => exact .didWait s _
  | clearWait => exact .didWait s _
  | allClear => exact .didTx s _
  | _ => exact .didSet s _ _

/-- Only the clear command uses up a transport answer. -/
theorem initStepDone_txAnswers (s : State) (k : InitStep) :
    (s.initStepDone k).txAnswers = s.txAnswers.drop (if k = .allClear then 1 else 0) := by cases k <;> rfl

theorem initStep_ok (k : InitStep) (hq : s.Quiet) (hl : s.LinesAnswerOk)
    (ht : k = .allClear → s.txAnswers.get 0 = .ok) :
    initStep k s = .ok none (s.initStepDone k) := by
  cases k with
  | settle => exact Act.bind_ok (wait_did hq (hl.wait 0))
  | clearWait => exact Act.bind_ok (wait_did hq (hl.wait 0))
  | allClear => exact Act.bind_ok (tx_did hq (ht rfl))
  | _ => exact Act.bind_ok (ctlSet_ok hq (hl.ctl 0))

/-- Steps of INIT that all go well lead to its end. -/
theorem initSequence_ok (r : Req) : ∀ (ks : List InitStep) (s : State), s.Quiet → s.LinesAnswerOk →
    (∀ n, n < ks.count .allClear → s.txAnswers.get n = .ok) →
    ∃ t, initSequence r ks s = initDone r t ∧ s.GoesTo (ks.map InitStep.event) t
  | [], s, _, _, _ => ⟨s, rfl, rfl, id, id, id, rfl, rfl, rfl, (List.append_nil _).symm⟩
  | k :: ks, s, hq, hl, ht => by
    have hs := State.GoesTo.setStep s (.initStep k)
    have hk := initStep_ok k (hs.quiet hq) (hs.lines hl) fun hk => ht 0 (by simp [hk])
    have hg := hs.trans (.initStepDone _ k)
    obtain ⟨t, ht', hgt⟩ := initSequence_ok r ks _ (hg.quiet hq) (hg.lines hl) fun n hn => by
      rw [initStepDone_txAnswers, Script.get_drop]
      refine ht _ ?_
      rw [List.count_cons, Nat.add_comm]
      simpa using hn
    exact ⟨t, (Act.bind_ok hk).trans ht', hg.trans hgt⟩

theorem initDone_quiet (r : Req) (hq : s.Quiet) :
    initDone r s = .ok () ((((s.setPState .active).setUnit .idle).setStatus .ok).emit (.ret r .ok)) :=
  envTurn_bind_quiet hq

/-- The events from a step of INIT on are the end of those of INIT. -/
theorem onward_events (k : InitStep) : k.onward.map InitStep.event = initEvents.drop (8 - k.onward.length) := by
  cases k <;> rfl

theorem onward_count_allClear (k : InitStep) : k.onward.count .allClear ≤ 1 := by cases k <;> decide

/-! ## DETACH -/

theorem detachFinish_ok (r : Req) (hq : s.Quiet) (hc : s.ctlAnswers.get 0 = .ok) :
    detachFinish r s = .ok ()
      { s.didSet .chipSelect false with
        pstate := .off
        lock := .free
        seq := { s.seq with unit := .idle }
        status := .ok
        trace := s.trace ++ [.set .chipSelect false true, .rel r, .ret r .ok] } := by
  have hq' : ((s.didSet .chipSelect false).setPState .off).Quiet := hq
  rw [detachFinish, Act.bind_ok (ctlSet_ok hq hc), Act.update_bind_apply]
  refine (finishRefresh_quiet (r := r) (st := .ok) hq').trans ?_
  simp [State.didSet, State.setPState]

theorem detachLower_ok (r : Req) (hq : s.Quiet) (hc : s.ctlAnswers.get 0 = .ok) :
    ∃ t, detachLower r s = detachFinish r t ∧ t.Quiet ∧ t.ctlAnswers = s.ctlAnswers.drop 1 ∧ t.fb = s.fb ∧
      t.inFlight = s.inFlight ∧ t.trace = s.trace ++ [.set .displayEnable false true] := by
  refine ⟨_, Act.bind_ok (ctlSet_ok hq hc), ?_⟩
  dsimp only
  split <;> exact ⟨hq, rfl, rfl, rfl, rfl⟩

/-! ## One step inside a unit -/

theorem resume_refresh (hu : s.seq.unit = .refresh) : resume s = resumeRefresh s.caller s.seq s := by
  rw [resume, Act.read_bind_apply, hu]

theorem resume_init (hu : s.seq.unit = .init) : resume s = resumeInit s.caller s.seq s := by
  rw [resume, Act.read_bind_apply, hu]

theorem resume_detach (hu : s.seq.unit = .detach) : resume s = resumeDetach s.caller s.seq s := by
  rw [resume, Act.read_bind_apply, hu]

theorem resumeRefresh_ok (r : Req) (h : s.AllOk) (hf : s.LineFits) :
    ∃ t, resumeRefresh r s.seq s = finishRefresh r .ok t ∧
      s.GoesTo (restOfLine s.fb s.seq ++ (linesAfter s.seq.ln).flatMap fun n => lineEvents s.fb n) t := by
  obtain ⟨loop, u, hloop, hrun, hg⟩ := h.loopFrom hf
  refine ⟨(linesAfter s.seq.ln).foldl State.lineDone u, ?_, ?_⟩
  · rw [resumeRefresh, hloop]
    exact Act.bind_ok (hrun.trans ((h.of_goesTo hg).lineLoop _))
  · have hrest := State.GoesTo.linesDone (linesAfter s.seq.ln) u
    rw [hg.fb] at hrest
    exact hg.trans hrest

/-- A refresh goes on from any of its positions to its end. -/
theorem step_refresh_ok (s : State) (hq : s.Quiet) (hc : s.inFlight = none) (ho : s.ordered = none)
    (hu : s.seq.unit = .refresh) (hf : s.LineFits) (hl : s.LinesAnswerOk) (htx : ∀ n, s.txAnswers.get n = .ok)
    (hgr : ∀ n, s.grants.get n = true) :
    ∃ t : State, step s = .next t ∧ t.status = .ok ∧ t.lock = .free ∧ t.seq.unit = .idle ∧ t.fb = s.fb ∧
      t.pstate = s.pstate ∧ t.inFlight = none ∧
      t.trace = s.trace ++ restOfLine s.fb s.seq ++
        (linesAfter s.seq.ln).flatMap (fun n => lineEvents s.fb n) ++ refreshClosing s.caller .ok := by
  obtain ⟨t, ht, hg⟩ := resumeRefresh_ok s.caller ⟨hq, hl, htx, hgr⟩ hf
  have hrun := Act.outcome_ok ((resume_refresh hu).trans (ht.trans (finishRefresh_quiet (hg.quiet hq))))
  rw [step_unit hc ho (by rw [hu]; decide)]
  exact ⟨_, hrun, rfl, rfl, rfl, hg.fb, hg.pstate, hg.inFlight.trans hc, by simp [hg.trace, refreshClosing]⟩

/-- INIT goes on from any of its steps to its end. -/
theorem step_init_ok (s : State) (k : InitStep) (hq : s.Quiet) (hc : s.inFlight = none) (ho : s.ordered = none)
    (hu : s.seq.unit = .init) (hs : s.seq.step = .initStep k) (hl : s.LinesAnswerOk) (htx : s.txAnswers.get 0 = .ok) :
    ∃ t : State, step s = .next t ∧ t.status = .ok ∧ t.pstate = .active ∧ t.seq.unit = .idle ∧ t.fb = s.fb ∧
      t.inFlight = none ∧
      t.trace = s.trace ++ initEvents.drop (8 - k.onward.length) ++ [.ret s.caller .ok] := by
  obtain ⟨t, ht, hg⟩ := initSequence_ok s.caller k.onward s hq hl fun n hn => by
    obtain rfl : n = 0 := by have := onward_count_allClear k; omega
    exact htx
  have hr : resumeInit s.caller s.seq s = initSequence s.caller k.onward s := by rw [resumeInit, hs]
  have hrun := Act.outcome_ok ((resume_init hu).trans (hr.trans (ht.trans (initDone_quiet _ (hg.quiet hq)))))
  rw [step_unit hc ho (by rw [hu]; decide), ← onward_events]
  exact ⟨_, hrun, rfl, rfl, rfl, hg.fb, hg.inFlight.trans hc, congrArg (· ++ _) hg.trace⟩

/-- DETACH goes on from either of its calls to its end. -/
theorem step_detach_ok (s : State) (k : DetachStep) (hq : s.Quiet) (hc : s.inFlight = none) (ho : s.ordered = none)
    (hu : s.seq.unit = .detach) (hs : s.seq.step = .detachStep k) (hl : s.LinesAnswerOk) :
    ∃ t : State, step s = .next t ∧ t.status = .ok ∧ t.pstate = .off ∧ t.lock = .free ∧ t.seq.unit = .idle ∧
      t.fb = s.fb ∧ t.inFlight = none ∧
      t.trace = s.trace ++ (if k = .displayLow then [.set .displayEnable false true] else []) ++
        [.set .chipSelect false true, .rel s.caller, .ret s.caller .ok] := by
  rw [step_unit hc ho (by rw [hu]; decide)]
  cases k with
  | displayLow =>
    obtain ⟨u, hrun, huq, hctl, hfb, hin, htr⟩ := detachLower_ok s.caller hq (hl.ctl 0)
    have hr : resumeDetach s.caller s.seq s = detachLower s.caller s := by rw [resumeDetach, hs]
    have hf := detachFinish_ok s.caller huq (by rw [hctl, Script.get_drop]; exact hl.ctl _)
    have hrun := Act.outcome_ok ((resume_detach hu).trans (hr.trans (hrun.trans hf)))
    exact ⟨_, hrun, rfl, rfl, rfl, rfl, hfb, hin.trans hc, by simp [htr]⟩
  | csLow =>
    have hr : resumeDetach s.caller s.seq s = detachFinish s.caller s := by rw [resumeDetach, hs]
    have hrun := Act.outcome_ok ((resume_detach hu).trans (hr.trans (detachFinish_ok s.caller hq (hl.ctl 0))))
    exact ⟨_, hrun, rfl, rfl, rfl, rfl, rfl, hc, by simp⟩

/-- Settles O8, unit by unit. -/
theorem unitsGoOnFromEveryPosition : Obligations.UnitsGoOnFromEveryPosition :=
  ⟨step_refresh_ok, step_init_ok, step_detach_ok⟩

end Sys2Proof.Machine
end

section
/-! SUPPORT. The pixel word, a producer's byte at an idle block, and what of a pixel word the packing looks at. -/

namespace Sys2Proof.Machine

/-- Appended words, as numbers: the upper one is moved up by the width of the lower one. -/
theorem toNat_append_eq_add {n m : Nat} (x : BitVec n) (y : BitVec m) : (x ++ y).toNat = 2 ^ m * x.toNat + y.toNat := by
  rw [BitVec.toNat_append, Nat.shiftLeft_eq, Nat.mul_comm, Nat.two_pow_add_eq_or_of_lt y.isLt]

theorem toNat_wordOfBytes_little (b0 b1 b2 b3 : Byte) :
    (wordOfBytes .little b0 b1 b2 b3).toNat =
      b0.toNat + 2 ^ 8 * b1.toNat + 2 ^ 16 * b2.toNat + 2 ^ 24 * b3.toNat := by
  simp only [wordOfBytes, toNat_append_eq_add]
  omega

/-- Settles O17. -/
theorem pixelWordIsLittleEndian : Obligations.PixelWordIsLittleEndian :=
  fun _ _ => toNat_wordOfBytes_little _ _ _ _

theorem step_port_wr {s : State} {a : Nat} {b : Byte} {rest : List (Option Input)} (hc : s.inFlight = none)
    (ho : s.ordered = none) (hu : s.seq.unit = .idle) (hp : s.port = some (.wr a b) :: rest) :
    step s = (produceByte a b).outcome { s with port := rest } := by
  rw [step_idle hc ho hu, idleStep, hp]
  rfl

/-- Settles O16. -/
theorem producerWriteIsSeenByLaterReads : Obligations.ProducerWriteIsSeenByLaterReads := by
  intro s a b rest hc ho hu hp
  have hs : step s = .next _ := (step_port_wr hc ho hu hp).trans (Act.outcome_ok (produceByte_apply a b _))
  constructor
  · intro ha
    rw [if_pos ha] at hs
    exact ⟨_, hs, by simp [Memory.read_write], fun k hk => by simp [Memory.read_write, hk]⟩
  · intro ha
    rwa [if_neg (Nat.not_lt.2 ha)] at hs

/-- The three channel bits of a pixel word. -/
def channels (w : Word) : Bool × Bool × Bool := (chan w 0, chan w 1, chan w 2)

theorem placeChannel_congr {w v : Word} {k : Nat} (h : chan w k = chan v k) (i : Nat) (out : List Byte) :
    placeChannel i w out k = placeChannel i v out k := by
  unfold placeChannel; rw [h]

theorem placePixels_congr : ∀ {ws vs : List Word}, ws.map channels = vs.map channels →
    ∀ (i : Nat) (out : List Byte), placePixels i ws out = placePixels i vs out
  | [], [], _, _, _ => rfl
  | w :: ws, v :: vs, h, i, out => by
    obtain ⟨hw, hws⟩ := List.cons.inj h
    simp only [channels, Prod.mk.injEq] at hw
    obtain ⟨h0, h1, h2⟩ := hw
    simp only [placePixels, List.foldl_cons, List.foldl_nil, placeChannel_congr h0, placeChannel_congr h1,
      placeChannel_congr h2, placePixels_congr hws]

theorem packRow_congr {ws vs : List Word} (h : ws.map channels = vs.map channels) : packRow ws = packRow vs := by
  have hl : ws.length = vs.length := by simpa using congrArg List.length h
  rw [packRow, packRow, hl, placePixels_congr h]

/-- Settles O14. -/
theorem onlyThreeBitsOfAPixelMatter : Obligations.OnlyThreeBitsOfAPixelMatter := by
  intro s m y hy hq hr hm
  refine ⟨_, _, Act.outcome_ok (encodeRow_quiet hy hq hr),
    Act.outcome_ok (encodeRow_quiet (s := { s with fb := m }) hy hq hr), ?_⟩
  rw [encoded_lb, encoded_lb]
  refine packRow_congr ?_
  simp only [rowWords, List.map_map]
  refine List.map_congr_left fun x hx => ?_
  have h := hm x (List.mem_range.1 hx)
  simp only [Function.comp, channels, chan, Prod.mk.injEq]
  exact ⟨h 2 (by decide), h 1 (by decide), h 0 (by decide)⟩

end Sys2Proof.Machine
end

section
/-! SUPPORT. Nothing but a producer's write or a reset changes the frame buffer (20_memory.md R56). -/

namespace Sys2Proof.Machine

variable {m : Memory} {s : State}

/-- The frame buffer holds `m`, and nothing is scheduled that could change it. -/
def State.Holds (m : Memory) (s : State) : Prop :=
  s.fb = m ∧ (s.during.all fun slot => slot.all Input.sparesBuffer) = true

/-! ## What arrives -/

theorem ctlSetNow_holds (l : Line) (v : Bool) : Act.Keeps (State.Holds m) (ctlSetNow l v) := by
  intro s h
  unfold Act.final
  by_cases ha : s.ctlAnswers.get 0 = .never
  · rwa [ctlSetNow_never ha]
  · rwa [ctlSetNow_answers ha]

theorem retNow_holds (r : Req) (st : Status) : Act.Keeps (State.Holds m) (retNow r st) := .update fun _ => id

theorem turnAway_holds (r : Req) : Act.Keeps (State.Holds m) (turnAway r) := .update fun _ => id

theorem issue_holds (r : Req) (op : BitVec 3) : Act.Keeps (State.Holds m) (issue r op) := by
  intro s h
  unfold Act.final
  by_cases hi : s.seq.unit = .init ∨ s.pstate = .initializing
  · rwa [issue_refused hi]
  · obtain ⟨hu, hp⟩ := not_or.1 hi
    rwa [issue_accepted hu hp]

/-- A property that two actions keep, the choice of one of them keeps. -/
theorem Act.Keeps.ite {α : Type} {P : State → Prop} {c : Prop} [Decidable c] {x y : Act α} (hx : Act.Keeps P x)
    (hy : Act.Keeps P y) : Act.Keeps P (if c then x else y) := by
  split
  · exact hx
  · exact hy

/-- BLANK and UNBLANK have one shape. -/
theorem blanking_holds {r : Req} {op : BitVec 3} {v : Bool} {p : PState} :
    Act.Keeps (State.Holds m) (do
      issue r op
      let q ← Act.read State.pstate
      if q.isUp then
        let _ ← ctlSetNow .displayEnable v
        Act.update fun s => s.setPState p
        retNow r .ok
      else
        retNow r .invalidArgument) :=
  (issue_holds r op).bind fun _ => .bind (.read _) fun _ =>
    .ite ((ctlSetNow_holds _ _).bind fun _ => .bind (.update fun _ => id) fun _ => retNow_holds r _) (retNow_holds r _)

theorem requestRefresh_holds (r : Req) : Act.Keeps (State.Holds m) (requestRefresh r) :=
  (issue_holds r _).bind fun _ => .update fun _ => id

theorem requestDetach_holds (r : Req) : Act.Keeps (State.Holds m) (requestDetach r) :=
  (issue_holds r _).bind fun _ => .bind (.read _) fun _ =>
    .ite (.pure _) (.bind (.update fun _ => id) fun _ => .pure _)

theorem arrive_holds (r : Req) (op : BitVec 3) : Act.Keeps (State.Holds m) (arrive r op) := by
  unfold arrive
  split
  · exact (issue_holds r _).bind fun _ => .bind (.read _) fun _ => .ite (.stop _) (turnAway_holds r)
  · exact requestRefresh_holds r
  · exact blanking_holds
  · exact blanking_holds
  · exact (requestDetach_holds r).bind fun _ => .ite (.pure _) (turnAway_holds r)
  · exact (issue_holds r op).bind fun _ => turnAway_holds r

theorem answerNow_holds (k : Nat) : Act.Keeps (State.Holds m) (answerNow k) := by
  intro s h
  unfold Act.final
  cases hl : s.lock with
  | held r => rwa [answerNow_held hl]
  | free =>
    cases ho : s.owed[k]? with
    | none => rwa [answerNow_none ho]
    | some c => rwa [answerNow_owed hl ho]

/-- Every input but a producer's write and a reset leaves the frame buffer as it is. -/
theorem applyInput_holds (i : Input) (hi : i.sparesBuffer = true) : Act.Keeps (State.Holds m) (applyInput i) := by
  cases i with
  | cmd r op => exact arrive_holds r op
  | wr a b => cases hi
  | policy p => exact .update fun _ => id
  | reset u => cases hi
  | answer k => exact answerNow_holds k
  | putOff => exact .pure _

theorem State.Holds.later {slot : List Input} {d : List (List Input)} (h : s.Holds m) (hd : s.during = slot :: d) :
    ({ s with during := d } : State).Holds m := by
  obtain ⟨hm, hs⟩ := h
  rw [hd, List.all_cons, Bool.and_eq_true] at hs
  exact ⟨hm, hs.2⟩

theorem State.Holds.spares (h : s.Holds m) : ∀ slot ∈ s.during, ∀ i ∈ slot, i.sparesBuffer = true :=
  fun slot hslot => List.all_eq_true.1 (List.all_eq_true.1 h.2 slot hslot)

theorem envTurn_holds : Act.Keeps (State.Holds m) envTurn :=
  envTurn_keeps (fun _ _ => id) (fun _ _ _ hd h => h.later hd) (fun _ => State.Holds.spares) applyInput_holds

theorem openTurn_holds : Act.Keeps (State.Holds m) openTurn :=
  openTurn_keeps (fun _ _ => id) (fun _ _ _ hd h => h.later hd) (fun _ => State.Holds.spares) applyInput_holds

/-! ## Calls inside an operation -/

theorem ctlSet_holds (l : Line) (v : Bool) : Act.Keeps (State.Holds m) (ctlSet l v) :=
  afterTurn_keeps envTurn_holds (ctlSetNow_holds l v)

theorem tx_holds (bytes : List Byte) : Act.Keeps (State.Holds m) (tx bytes) := by
  refine afterTurn_keeps envTurn_holds fun s h => ?_
  unfold Act.final
  cases ha : s.txAnswers.get 0 with
  | ok => rwa [txNow_ok ha]
  | fail n => rwa [txNow_fail ha]
  | never => rwa [txNow_never ha]

theorem wait_holds (d : Delay) : Act.Keeps (State.Holds m) (wait d) := by
  refine afterTurn_keeps envTurn_holds fun s h => ?_
  unfold Act.final
  cases ha : s.waitAnswers.get 0 with
  | true => rwa [waitNow_ends ha]
  | false => rwa [waitNow_never ha]

theorem rd_holds (a : Nat) : Act.Keeps (State.Holds m) (rd a) := by
  refine afterTurn_keeps envTurn_holds fun s h => ?_
  unfold Act.final
  by_cases hin : a + 3 < Config.fbBytes
  · cases ha : s.rdAnswers.get 0 with
    | true => rwa [rdNow_returns hin ha]
    | false => rwa [rdNow_never hin ha]
  · rwa [rdNow_outside hin]

theorem rowParts_hold (m : Memory) (y : Nat) : Act.RowParts (fun _ => Act.Keeps (State.Holds m)) y where
  pure := .pure
  bind := .bind
  rd _ := rd_holds _
  setPxi _ := .update fun _ => id
  sample _ := .update fun _ => id
  dropSamples := .update fun _ => id
  packLine := .update fun _ => id

theorem lineParts_hold (m : Memory) : Act.LineParts fun _ => Act.Keeps (State.Holds m) where
  pure := .pure
  bind := .bind
  chipSelect _ := ctlSet_holds _ _
  tx := tx_holds
  gap := wait_holds _
  grant _ := id
  encode n := (rowParts_hold m n).encodeRow
  readLb := .read _
  readHdr := .read _
  readResult := .read _
  readPolicyS := .read _
  setStep _ := .update fun _ => id
  setResult _ := .update fun _ => id
  close _ := .update fun _ => id
  header _ := .update fun _ => id
  openLine _ := .update fun _ => id

/-! ## Operations -/

theorem release_holds (r : Req) : Act.Keeps (State.Holds m) (release r) :=
  envTurn_holds.bind fun _ => .bind (.update fun _ => id) fun _ => .update fun _ => id

theorem ret_holds (r : Req) (st : Status) : Act.Keeps (State.Holds m) (ret r st) :=
  envTurn_holds.bind fun _ => retNow_holds r st

theorem retTurnedAway_holds (r : Req) : Act.Keeps (State.Holds m) (retTurnedAway r) :=
  .bind (.read _) fun _ => openTurn_holds.bind fun _ => .ite (turnAway_holds r) (retNow_holds r _)

theorem finishRefresh_holds (r : Req) (st : Status) : Act.Keeps (State.Holds m) (finishRefresh r st) :=
  (release_holds r).bind fun _ => ret_holds r st

theorem refreshBody_holds (r : Req) : Act.Keeps (State.Holds m) (refreshBody r) :=
  .bind (.update fun _ => id) fun _ => .bind (.read _) fun _ => .ite (.stop _) <|
    .ite (finishRefresh_holds r _) <| .bind ((lineParts_hold m).lineLoop _) fun st => finishRefresh_holds r st

theorem detachLower_holds (r : Req) : Act.Keeps (State.Holds m) (detachLower r) :=
  (ctlSet_holds _ _).bind fun _ => .bind (.update fun s h => by split <;> exact h) fun _ =>
    (ctlSet_holds _ _).bind fun _ => .bind (.update fun _ => id) fun _ => (release_holds r).bind fun _ => ret_holds r _

theorem detachBody_holds (r : Req) : Act.Keeps (State.Holds m) (detachBody r) :=
  .bind (.update fun _ => id) fun _ => .bind (.read _) fun _ => .ite (.stop _) <|
    .ite ((release_holds r).bind fun _ => ret_holds r _) <| .bind (.update fun _ => id) fun _ => detachLower_holds r

theorem grantLock_holds : Act.Keeps (State.Holds m) grantLock := by
  intro s h
  unfold Act.final
  by_cases hl : s.lock = .free
  · cases hw : s.waitq[s.arb.get 0 % s.waitq.length]? with
    | none => unfold grantLock; rwa [if_pos hl, hw]
    | some w => rwa [grantLock_free hl hw]
  · rwa [grantLock_held hl]

theorem serve_holds : Act.Keeps (State.Holds m) serve := by
  refine openTurn_holds.bind fun _ => .ite (.pure _) <| grantLock_holds.bind fun g => ?_
  match g with
  | none => exact .pure _
  | some (r, .refresh) => exact refreshBody_holds r
  | some (r, .detach) => exact detachBody_holds r

theorem initStep_holds (k : InitStep) : Act.Keeps (State.Holds m) (initStep k) := by
  cases k with
  | settle => exact (wait_holds _).bind fun _ => .pure _
  | clearWait => exact (wait_holds _).bind fun _ => .pure _
  | allClear => exact (tx_holds _).bind fun _ => .pure _
  | _ => exact (ctlSet_holds _ _).bind fun _ => .pure _

theorem initEnd_holds (r : Req) (st : Status) (p : PState) :
    Act.Keeps (State.Holds m) (do
      envTurn
      Act.update fun s => (s.setPState p).setUnit .idle
      retNow r st) :=
  envTurn_holds.bind fun _ => .bind (.update fun _ => id) fun _ => retNow_holds r st

theorem initFail_holds (r : Req) (k : InitStep) (e : Status) : Act.Keeps (State.Holds m) (initFail r k e) :=
  .ite ((ctlSet_holds _ _).bind fun _ => initEnd_holds r e _) (initEnd_holds r e _)

theorem initSequence_holds (r : Req) : ∀ ks, Act.Keeps (State.Holds m) (initSequence r ks)
  | [] => initEnd_holds r _ _
  | k :: ks => by
    refine .bind (.update fun _ => id) fun _ => (initStep_holds k).bind fun e => ?_
    cases e with
    | none => exact initSequence_holds r ks
    | some e => exact initFail_holds r k e

theorem initCommand_holds (r : Req) : Act.Keeps (State.Holds m) (initCommand r) :=
  (issue_holds r _).bind fun _ => .bind (.read _) fun _ => .ite
    (.bind (.read _) fun _ => .ite (.bind (.update fun _ => id) fun _ => initSequence_holds r _) (.stop _))
    (retTurnedAway_holds r)

/-- Settles O18: every operation is built of parts that keep the frame buffer. -/
theorem noInstructionWritesTheFrameBuffer : Obligations.NoInstructionWritesTheFrameBuffer := by
  intro i s t hs ht
  have close {x : Act Unit} (ho : x.outcome s = .next t) (hx : Act.Keeps (State.Holds s.fb) x) : t.fb = s.fb :=
    (hx.next ⟨rfl, hs⟩ ho).1
  cases i with
  | init r => exact close ht (initCommand_holds r)
  | refresh r => exact close ht ((requestRefresh_holds r).bind fun _ => serve_holds)
  | blank r => exact close ht blanking_holds
  | unblank r => exact close ht blanking_holds
  | detach r => exact close ht ((requestDetach_holds r).bind fun _ => .ite serve_holds (retTurnedAway_holds r))
  | sendLine line => exact close ht (((lineParts_hold _).sendLine line).bind fun _ => .update fun _ => id)
  | encodeRow y => exact close ht (rowParts_hold _ y).encodeRow
  | trailer => cases ht; rfl
  | allClear => exact close ht ((tx_holds _).bind fun _ => .update fun _ => id)

end Sys2Proof.Machine
end

section
/-! SUPPORT. The reads of a row when a producer's byte arrives between two of them (20_memory.md R59). -/

namespace Sys2Proof.Machine

variable {α β : Type} {s t : State} {y : Nat}

/-- Actions that end alike may be followed by one and the same. -/
theorem Act.bind_congr {x x' : Act α} (h : x s = x' t) (f : α → Act β) : (x >>= f) s = (x' >>= f) t := by
  simp only [bind, EStateM.bind, h]

/-- The slot before the next event is used up. -/
def State.nextSlot (s : State) : State := { s with during := s.during.tail }

/-- With nothing scheduled before the next event, the environment's turn only uses up that slot. -/
theorem envTurn_headD_nil (h : s.during.headD [] = []) : envTurn s = .ok () s.nextSlot := by
  simpa [State.nextSlot, Memory.produceAll, writeEvents] using envTurn_writes (ws := []) h

/-- A read at which something arrives and nothing is left to arrive is the read after it. -/
theorem rd_eq_of_envTurn {a : Nat} (h : envTurn s = .ok () t) (hq : t.Quiet) : rd a s = rd a t := by
  rw [rd_quiet hq]
  exact Act.bind_ok h

/-- The state after the reads of the given columns of row `y`, each of which returned. -/
def State.didRead (s : State) (y : Nat) (xs : List (Fin 400)) : State :=
  { s with
    px := s.px ++ xs.map fun x : Fin 400 => s.fb.pixel (pixelAddr y x)
    seq := { s.seq with pxi := xs.getLast?.getD s.seq.pxi }
    rdAnswers := s.rdAnswers.drop xs.length
    during := s.during.drop xs.length
    trace := s.trace ++ xs.map fun x : Fin 400 => Event.rd (pixelAddr y x) (s.fb.pixel (pixelAddr y x)) }

theorem pixelAddr_inside (hy : y < Config.height) (x : Fin 400) : pixelAddr y x + 3 < Config.fbBytes := by
  have := x.isLt
  simp only [pixelAddr, Config.stride, Config.fbBytes, Config.height] at *
  omega

/-- The reads of the given columns, when each returns and the slots before them are empty. -/
theorem readPixels_pauses (hy : y < Config.height) : ∀ (xs : List (Fin 400)) (s : State),
    (∀ n, n < xs.length → s.during.getD n [] = []) → (∀ n, n < xs.length → s.rdAnswers.get n = true) →
      readPixels y xs s = .ok () (s.didRead y xs)
  | [], s, _, _ => by simp [readPixels, State.didRead]
  | x :: xs, s, hd, hr => by
    have h0 : (s.setPxi x).during.headD [] = [] := by
      simpa [List.headD_eq_head?_getD, List.head?_eq_getElem?] using hd 0 (by simp)
    have hrd : rd (pixelAddr y x) (s.setPxi x) = _ :=
      (Act.bind_ok (envTurn_headD_nil h0)).trans (rdNow_returns (pixelAddr_inside hy x) (hr 0 (by simp)))
    unfold readPixels
    rw [Act.update_bind_apply, Act.bind_ok hrd, Act.update_bind_apply,
      readPixels_pauses hy xs _ (fun n hn => by simpa [State.nextSlot] using hd (n + 1) (by simpa using hn))
        (fun n hn => by simpa [State.nextSlot, Nat.add_comm] using hr (n + 1) (by simpa using hn))]
    cases xs <;> simp [State.didRead, State.nextSlot, State.setPxi, State.sample, Nat.add_comm, List.getLast?_cons]

/-- Reads that end well are followed by those of the columns after them. -/
theorem readPixels_append {ys : List (Fin 400)} : ∀ {xs : List (Fin 400)} {s : State},
    readPixels y xs s = .ok () t → readPixels y (xs ++ ys) s = readPixels y ys t := by
  have h : ∀ xs, readPixels y (xs ++ ys) = readPixels y xs >>= fun _ => readPixels y ys := by
    intro xs
    induction xs with
    | nil => simp [readPixels]
    | cons x xs ih => simp [readPixels, ih]
  intro xs s hs
  rw [h, Act.bind_ok hs]

/-- A producer's byte inside the buffer is written and recorded. -/
def State.written (s : State) (a : Nat) (b : Byte) : State :=
  { s with fb := s.fb.write a b, trace := s.trace ++ [.wr a b] }

/-- A turn at which one byte inside the buffer arrives. -/
theorem envTurn_write {a : Nat} {b : Byte} {later : List (List Input)} (ha : a < 384000)
    (hd : s.during = [.wr a b] :: later) : envTurn s = .ok () (s.nextSlot.written a b) := by
  rw [envTurn_writes (ws := [(a, b)]) (by rw [hd]; rfl)]
  simp [State.nextSlot, State.written, Memory.produceAll, Memory.produce, writeEvents, ha, Config.fbBytes]

/-- A byte that arrives just before the first of some reads comes before all of them. -/
theorem readPixels_write {a : Nat} {b : Byte} (ha : a < 384000) (hd : s.during = [[.wr a b]]) {xs : List (Fin 400)}
    (hx : xs ≠ []) : readPixels y xs s = readPixels y xs (s.nextSlot.written a b) := by
  cases xs with
  | nil => exact absurd rfl hx
  | cons x xs =>
    have ht : envTurn (s.setPxi x) = .ok () ((s.setPxi x).nextSlot.written a b) := envTurn_write ha hd
    unfold readPixels
    rw [Act.update_bind_apply, Act.update_bind_apply]
    exact Act.bind_congr (rd_eq_of_envTurn ht (congrArg List.tail hd)) _

/-- Reads between which one byte arrives: those before it find the old buffer, those after it the written one. -/
theorem readPixels_torn (hy : y < Config.height) {a : Nat} {b : Byte} (ha : a < 384000) {xs ys : List (Fin 400)}
    (hys : ys ≠ []) (hd : s.during = List.replicate xs.length [] ++ [[.wr a b]])
    (hr : ∀ n, n < xs.length + ys.length → s.rdAnswers.get n = true) :
    readPixels y (xs ++ ys) s = .ok () (((s.didRead y xs).nextSlot.written a b).didRead y ys) := by
  have hbefore : readPixels y xs s = .ok () (s.didRead y xs) := by
    refine readPixels_pauses hy xs s (fun n hn => ?_) fun n hn => hr n (Nat.lt_add_right _ hn)
    rw [hd, List.getD_append _ _ _ _ (by simpa using hn), List.getD_replicate _ hn]
  have hwrite : (s.didRead y xs).during = [[.wr a b]] := by simp [State.didRead, hd]
  rw [readPixels_append hbefore, readPixels_write ha hwrite hys]
  have hquiet : ((s.didRead y xs).nextSlot.written a b).during = [] := congrArg List.tail hwrite
  exact readPixels_pauses hy ys _ (fun n _ => by rw [hquiet]; rfl) fun n hn =>
    (Script.get_drop _ _ n).trans (hr _ (Nat.add_lt_add_left hn _))

theorem rowWords_eq_map_columns (m : Memory) (y : Nat) :
    rowWords m y = (List.finRange Config.width).map fun x : Fin 400 => m.pixel (pixelAddr y x) := by
  rw [rowWords, ← List.map_coe_finRange_eq_range, List.map_map]
  exact List.map_congr_left fun x _ => by rw [pixelAddr_eq]; rfl

theorem rowEvents_eq_map_columns (m : Memory) (y : Nat) : rowEvents m y =
    (List.finRange Config.width).map fun x : Fin 400 => Event.rd (pixelAddr y x) (m.pixel (pixelAddr y x)) := by
  rw [rowEvents, ← List.map_coe_finRange_eq_range, List.map_map]
  exact List.map_congr_left fun x _ => by rw [pixelAddr_eq]; rfl

/-- Settles O13: the reads before the byte's slot see the old buffer, those after it the written one. -/
theorem tearingFollowsTheOrderOfEvents : Obligations.TearingFollowsTheOrderOfEvents := by
  intro s y k a b hy hk ha hr hd
  have hlen : (List.finRange Config.width).length = 400 := List.length_finRange
  have hbefore : ((List.finRange Config.width).take k).length = k := by rw [List.length_take, hlen, min_eq_left hk.le]
  have hafter : ((List.finRange Config.width).drop k).length = 400 - k := by rw [List.length_drop, hlen]
  have hrow := readPixels_torn (s := { s with px := [] }) hy ha (b := b)
    (List.ne_nil_of_length_pos (by rw [hafter]; omega)) (by rw [hbefore]; exact hd)
    (fun n hn => hr n (by rw [hbefore, hafter] at hn; omega))
  rw [List.take_append_drop] at hrow
  refine Act.outcome_ok ?_
  unfold encodeRow encodeFrom
  rw [Act.update_bind_apply, List.drop_zero, Act.bind_ok hrow]
  simp [State.packLine, State.didRead, State.nextSlot, State.written, rowWords_eq_map_columns,
    rowEvents_eq_map_columns, hbefore, hafter, getLast?_columns hk, hk.le, hd]

end Sys2Proof.Machine
end

section
/-! SUPPORT. What happens at an event of an operation before which something arrives: the environment's turn, and then
the event alone. -/

namespace Sys2Proof.Machine

variable {s t u : State} {r : Req} {st : Status}

/-! ## The fields that later events look at -/

section
variable (s : State) (line : BitVec 16) (l : Line) (v : Bool) (bytes : List Byte) (a : Nat) (b : Byte)

@[simp] theorem State.nextSlot_during : s.nextSlot.during = s.during.tail := rfl
@[simp] theorem State.nextSlot_lock : s.nextSlot.lock = s.lock := rfl
@[simp] theorem State.nextSlot_owed : s.nextSlot.owed = s.owed := rfl
@[simp] theorem State.nextSlot_ctlAnswers : s.nextSlot.ctlAnswers = s.ctlAnswers := rfl
@[simp] theorem State.nextSlot_txAnswers : s.nextSlot.txAnswers = s.txAnswers := rfl
@[simp] theorem State.written_during : (s.written a b).during = s.during := rfl
@[simp] theorem State.written_lock : (s.written a b).lock = s.lock := rfl
@[simp] theorem State.written_owed : (s.written a b).owed = s.owed := rfl
@[simp] theorem State.written_ctlAnswers : (s.written a b).ctlAnswers = s.ctlAnswers := rfl
@[simp] theorem State.written_txAnswers : (s.written a b).txAnswers = s.txAnswers := rfl
@[simp] theorem State.didSet_during : (s.didSet l v).during = s.during := rfl
@[simp] theorem State.didSet_lock : (s.didSet l v).lock = s.lock := rfl
@[simp] theorem State.didSet_owed : (s.didSet l v).owed = s.owed := rfl
@[simp] theorem State.didSet_ctlAnswers : (s.didSet l v).ctlAnswers = s.ctlAnswers.drop 1 := rfl
@[simp] theorem State.didSet_txAnswers : (s.didSet l v).txAnswers = s.txAnswers := rfl
@[simp] theorem State.didTx_during : (s.didTx bytes).during = s.during := rfl
@[simp] theorem State.didTx_lock : (s.didTx bytes).lock = s.lock := rfl
@[simp] theorem State.didTx_owed : (s.didTx bytes).owed = s.owed := rfl
@[simp] theorem State.didTx_ctlAnswers : (s.didTx bytes).ctlAnswers = s.ctlAnswers := rfl
@[simp] theorem State.didTx_txAnswers : (s.didTx bytes).txAnswers = s.txAnswers.drop 1 := rfl
@[simp] theorem State.buffered_during : (s.buffered line).during = s.during := rfl
@[simp] theorem State.buffered_lock : (s.buffered line).lock = s.lock := rfl
@[simp] theorem State.buffered_owed : (s.buffered line).owed = s.owed := rfl
@[simp] theorem State.buffered_ctlAnswers : (s.buffered line).ctlAnswers = s.ctlAnswers := rfl
@[simp] theorem State.buffered_txAnswers : (s.buffered line).txAnswers = s.txAnswers := rfl

end

/-! ## Slots -/

theorem envTurn_slot {slot : List Input} {later : List (List Input)} (h : s.during = slot :: later) :
    envTurn s = applyInputs slot s.nextSlot := by
  unfold envTurn State.nextSlot; rw [h]; rfl

/-- An input that does not end the operation is followed by those after it. -/
theorem applyInputs_cons {i : Input} (h : applyInput i s = .ok () t) (is : List Input) :
    applyInputs (i :: is) s = applyInputs is t := by
  simp only [applyInputs, h]

/-- A slot of one input that does not end the operation. -/
theorem envTurn_single {i : Input} {later : List (List Input)} (hd : s.during = [i] :: later)
    (h : applyInput i s.nextSlot = .ok () t) : envTurn s = .ok () t := by
  rw [envTurn_slot hd, applyInputs_cons h]; rfl

/-! ## Calls after a turn -/

theorem ctlSet_of_envTurn {l : Line} {v : Bool} (h : envTurn s = .ok () t) (hc : t.ctlAnswers.get 0 = .ok) :
    ctlSet l v s = .ok true (t.didSet l v) := by
  refine (Act.bind_ok h).trans ?_
  rw [ctlSetNow_answers (by rw [hc]; nofun), hc]
  rfl

theorem tx_of_envTurn {bytes : List Byte} (h : envTurn s = .ok () t) (hx : t.txAnswers.get 0 = .ok) :
    tx bytes s = .ok true (t.didTx bytes) :=
  (Act.bind_ok h).trans (txNow_ok hx)

/-- The deassert of a line at which nothing arrives. -/
theorem closeLine_quiet (hq : s.Quiet) (hc : s.ctlAnswers.get 0 = .ok) :
    closeLine true true s = .ok .ok (s.setStep .csDeassert).deasserted := by
  have hset := ctlSet_ok (s := (s.setStep .csDeassert).setResult (some .ok)) (l := .chipSelect) (b := false) hq hc
  refine (Act.update_bind_apply _ _ s).trans ?_
  exact Act.bind_ok hset

theorem sendPayload_of_envTurn (h : envTurn s = .ok () t) (hx : t.txAnswers.get 0 = .ok) (hq : t.Quiet)
    (hc : t.ctlAnswers.get 0 = .ok) :
    sendPayload s = .ok .ok ((t.didTx s.lb).setStep .csDeassert).deasserted := by
  unfold sendPayload
  rw [Act.read_bind_apply, Act.bind_ok (tx_of_envTurn h hx)]
  exact closeLine_quiet hq hc

theorem sendHeader_of_envTurn (h : envTurn s = .ok () t) (hx : t.txAnswers.get 0 = .ok) :
    sendHeader s = sendPayload ((t.didTx s.hdr).setStep .txPayload) := by
  unfold sendHeader
  rw [Act.read_bind_apply, Act.bind_ok (tx_of_envTurn h hx)]
  rfl

theorem assertLine_of_envTurn (h : envTurn s = .ok () t) (hc : t.ctlAnswers.get 0 = .ok) :
    assertLine s = sendHeader ((t.didSet .chipSelect true).setStep .txHeader) :=
  (Act.bind_ok (ctlSet_of_envTurn h hc)).trans rfl

/-- A line of the panel for which a buffer is granted (41_line_framer.md R122). -/
theorem sendLine_granted {line : BitVec 16} (hl : line.toNat < 240) (hg : s.grants.get 0 = true) :
    sendLine line s = assertLine (s.buffered line) := by
  unfold sendLine
  rw [if_neg (Nat.not_le.2 hl), Act.bind_ok (grantNow_apply s), hg]
  rfl

/-- A line at which nothing arrives but before its first three calls, all calls answered `ok`. -/
theorem sendLine_of_envTurns {line : BitVec 16} {t₁ t₂ t₃ : State} (hl : line.toNat < 240)
    (hg : s.grants.get 0 = true) (h₁ : envTurn (s.buffered line) = .ok () t₁) (hc : t₁.ctlAnswers.get 0 = .ok)
    (h₂ : envTurn ((t₁.didSet .chipSelect true).setStep .txHeader) = .ok () t₂) (hx : t₂.txAnswers.get 0 = .ok)
    (h₃ : envTurn ((t₂.didTx t₁.hdr).setStep .txPayload) = .ok () t₃) (hx' : t₃.txAnswers.get 0 = .ok)
    (hq : t₃.Quiet) (hc' : t₃.ctlAnswers.get 0 = .ok) :
    sendLine line s = .ok .ok ((t₃.didTx t₂.lb).setStep .csDeassert).deasserted := by
  rw [sendLine_granted hl hg, assertLine_of_envTurn h₁ hc, sendHeader_of_envTurn h₂ hx]
  exact sendPayload_of_envTurn h₃ hx' hq hc'

/-- SEND_LINE sets out the status it returns for its invoker (log 8). -/
theorem exec_sendLine_ok {line : BitVec 16} (h : sendLine line s = .ok st t) :
    exec (.sendLine line) s = .next (t.setResult (some st)) := Act.outcome_ok (Act.bind_ok h)

/-- The lock released and the sequencer idle (43_refresh_coordinator.md R162, R168). -/
def State.released (s : State) (r : Req) : State := ({ s with lock := .free }.emit (.rel r)).setUnit .idle

/-- A REFRESH has been issued and waits for the lock (43_refresh_coordinator.md R161). -/
def State.requested (s : State) (r : Req) : State := (s.emit (.cmd r 0b010#3)).enqueue r .refresh

/-- A return given. -/
def State.returned (s : State) (r : Req) (st : Status) : State := (s.setStatus st).emit (.ret r st)

/-- The end of a refresh, with what arrives before its release and before its return. -/
theorem finishRefresh_of_envTurn (hrel : envTurn s = .ok () t) (hret : envTurn (t.released r) = .ok () u) :
    finishRefresh r st s = .ok () (u.returned r st) := by
  have hr : release r s = .ok () (t.released r) := Act.bind_ok hrel
  have ht : ret r st (t.released r) = .ok () (u.returned r st) := Act.bind_ok hret
  exact (Act.bind_ok hr).trans ht

/-! ## A refresh without a panel -/

/-- A refresh that has the lock samples the policy and begins (43_refresh_coordinator.md R170). -/
def State.begun (s : State) : State := { s with policyS := s.policy }.setUnit .refresh

/-- The display is not up: a refresh finds no panel (43_refresh_coordinator.md R163). -/
def PState.NoPanel (p : PState) : Prop := p = .uninitialized ∨ p = .off

theorem PState.NoPanel.not_initializing {p : PState} (h : p.NoPanel) : p ≠ .initializing := by
  rcases h with rfl | rfl <;> decide

/-- A refresh without a panel has only its end (43_refresh_coordinator.md R163). -/
theorem refreshBody_noPanel (hp : s.pstate.NoPanel) :
    refreshBody r s = finishRefresh r .invalidArgument s.begun := by
  unfold refreshBody
  rw [Act.update_bind_apply, Act.read_bind_apply]
  exact (congrFun (if_neg hp.not_initializing) _).trans (congrFun (if_pos hp) _)

theorem Seq.setIdle_self {q : Seq} (h : q.unit = .idle) : (⟨.idle, q.step, q.ln, q.pxi⟩ : Seq) = q := by rw [← h]

/-- A refresh without a panel that meets no other request, with what arrives before its release and before its
return. -/
theorem exec_refresh_noPanel (hd : s.during.headD [] = []) (hu : s.seq.unit = .idle) (hl : s.lock = .free)
    (hw : s.waitq = []) (hp : s.pstate.NoPanel) (hrel : envTurn (s.grantedAlone r).begun = .ok () t)
    (hret : envTurn (t.released r) = .ok () u) : exec (.refresh r) s = .next (u.returned r .invalidArgument) := by
  rw [exec_refresh_free hd (by rw [hu]; decide) hp.not_initializing hl hw]
  exact Act.outcome_ok ((refreshBody_noPanel (s := s.grantedAlone r) hp).trans (finishRefresh_of_envTurn hrel hret))

/-- At an idle block whose port has nothing, or leaves the turn to it, a step is the block's turn. -/
theorem step_idle_turn (hc : s.inFlight = none) (ho : s.ordered = none) (hu : s.seq.unit = .idle)
    (hp : s.port = [] ∨ ∃ p, s.port = none :: p) : step s = idleTurn { s with port := s.port.tail } := by
  rw [step_idle hc ho hu]
  rcases hp with hp | ⟨p, hp⟩
  · cases s; cases hp; rfl
  · rw [idleStep, hp]; rfl

/-- A refresh that waits alone at an idle block without a panel is granted the lock, gives it back and is answered by
the next step. -/
theorem step_refresh_waiting_noPanel (hq : s.Quiet) (hc : s.inFlight = none) (ho : s.ordered = none)
    (hport : s.port = []) (hu : s.seq.unit = .idle) (hl : s.lock = .free) (hw : s.waitq = [(r, .refresh)])
    (hp : s.pstate.NoPanel) :
    ∃ t, step s = .next t ∧ t.owed = s.owed ∧ t.waitq = [] ∧
      t.trace = s.trace ++ [.acq r, .rel r, .ret r .invalidArgument] := by
  have hchosen : s.waitq[s.arb.get 0 % s.waitq.length]? = some (r, .refresh) := by simp [hw, Nat.mod_one]
  have hserve : serve s = .ok () _ := (Act.bind_ok (openTurn_quiet hq)).trans <|
    (grantAndRun_refresh hl hchosen).trans <| (refreshBody_noPanel (by exact hp)).trans <| finishRefresh_quiet hq
  have hstep : step s = serve.outcome s := by
    rw [step_idle hc ho hu, idleStep, hport]
    exact if_neg (by simp [hw])
  refine ⟨_, hstep.trans (Act.outcome_ok hserve), rfl, ?_, ?_⟩
  · simp [State.begun, hw, Nat.mod_one]
  · simp [State.begun]

end Sys2Proof.Machine
end

section
/-! SUPPORT. Commands that are turned away and the returns they are owed (20_memory.md R57; 60_exceptions.md R185;
43_refresh_coordinator.md R172). -/

namespace Sys2Proof.Machine

variable {s t : State} {r q : Req} {st : Status} {op : BitVec 3}

/-- The opcodes that are turned away at once in a power state: the reserved ones (30_encoding.md R92 (a)), INIT outside
`Uninitialized` (42_display_controller.md R153) and DETACH in `Off` (R151). -/
def IsTurnedAway (op : BitVec 3) (p : PState) : Prop :=
  (op = 0#3 ∨ op = 6#3 ∨ op = 7#3) ∨ (op = 0b001#3 ∧ p ≠ .uninitialized) ∨ (op = 0b101#3 ∧ p = .off)

/-- A command has been issued, turned away, and is owed its return. -/
def State.turnedAway (s : State) (r : Req) (op : BitVec 3) : State := (s.emit (.cmd r op)).owe r .invalidArgument

@[simp] theorem State.turnedAway_during (s : State) : (s.turnedAway r op).during = s.during := rfl
@[simp] theorem State.turnedAway_lock (s : State) : (s.turnedAway r op).lock = s.lock := rfl
@[simp] theorem State.turnedAway_owed (s : State) :
    (s.turnedAway r op).owed = s.owed ++ [(r, .invalidArgument)] := rfl
@[simp] theorem State.turnedAway_ctlAnswers (s : State) : (s.turnedAway r op).ctlAnswers = s.ctlAnswers := rfl
@[simp] theorem State.turnedAway_txAnswers (s : State) : (s.turnedAway r op).txAnswers = s.txAnswers := rfl

/-- Inside an operation such a command is issued and owed its return. -/
theorem arrive_turnedAway (h : IsTurnedAway op s.pstate) (hu : s.seq.unit ≠ .init) (hp : s.pstate ≠ .initializing) :
    arrive r op s = .ok () (s.turnedAway r op) := by
  rcases h with (rfl | rfl | rfl) | ⟨rfl, hp'⟩ | ⟨rfl, ho⟩
  · exact Act.bind_ok (issue_accepted hu hp)
  · exact Act.bind_ok (issue_accepted hu hp)
  · exact Act.bind_ok (issue_accepted hu hp)
  · refine (Act.bind_ok (issue_accepted hu hp)).trans ?_
    exact (Act.read_bind_apply _ _ _).trans (congrFun (if_neg hp') _)
  · exact Act.bind_ok (requestDetach_off hu ho)

theorem applyInput_answer (k : Nat) (s : State) : applyInput (.answer k) s = answerNow k s := rfl

/-- The command owed last has been given its return, `owed` being those that still wait for theirs. -/
def State.answered (s : State) (owed : List (Req × Status)) (r : Req) (st : Status) : State :=
  { s with owed := owed, status := st, trace := s.trace ++ [.ret r st] }

section
variable (s : State) (owed : List (Req × Status)) (r : Req) (st : Status)

@[simp] theorem State.answered_during : (s.answered owed r st).during = s.during := rfl
@[simp] theorem State.answered_ctlAnswers : (s.answered owed r st).ctlAnswers = s.ctlAnswers := rfl
@[simp] theorem State.answered_txAnswers : (s.answered owed r st).txAnswers = s.txAnswers := rfl

end

/-- The command owed last gets its return, the lock being free. -/
theorem answerNow_last {owed : List (Req × Status)} (hl : s.lock = .free) (ho : s.owed = owed ++ [(r, st)]) :
    answerNow owed.length s = .ok () (s.answered owed r st) := by
  rw [answerNow_owed hl (by rw [ho]; exact List.getElem?_concat_length), ho,
    List.eraseIdx_append_of_length_le (Nat.le_refl _)]
  simp [State.answered]

/-! ## INIT outside `Uninitialized` -/

/-- An INIT outside `Uninitialized` is issued and turned away (42_display_controller.md R153). -/
theorem exec_init_turnedAway (hu : s.seq.unit ≠ .init)
    (hp : s.pstate = .active ∨ s.pstate = .blanked ∨ s.pstate = .off)
    (h : retTurnedAway r (s.emit (.cmd r 0b001#3)) = .ok () t) : exec (.init r) s = .next t := by
  have hi : s.pstate ≠ .initializing ∧ s.pstate ≠ .uninitialized := by
    rcases hp with hp | hp | hp <;> rw [hp] <;> decide
  refine Act.outcome_ok ?_
  unfold initCommand
  rw [Act.bind_ok (issue_accepted hu hi.1), Act.read_bind_apply, State.emit_pstate, if_neg hi.2, h]

/-- A return that is put off is owed. -/
theorem retTurnedAway_putOff (hd : s.during.headD [] = [.putOff]) :
    retTurnedAway r s = .ok () ({ s with during := s.during.tail }.owe r .invalidArgument) := by
  obtain ⟨later, hl⟩ : ∃ later, s.during = [.putOff] :: later := by
    cases h : s.during with
    | nil => rw [h] at hd; cases hd
    | cons slot later => rw [h] at hd; exact ⟨later, by rw [show slot = _ from hd]⟩
  have ho : openTurn s = .ok false s.nextSlot :=
    openTurn_eq_envTurn (by rw [hd]; simp [Input.isInit]) (envTurn_slot hl)
  have hp : s.putsOff = true := by rw [State.putsOff, hd]; rfl
  rw [retTurnedAway_after ho, hp]
  rfl

/-- Producers' writes may fall between an INIT that is turned away and its return, and the return may be put off. -/
theorem init_return_comes_later (s : State) (r : Req) (ws : List Host.Cell)
    (hp : s.pstate = .active ∨ s.pstate = .blanked ∨ s.pstate = .off) (hu : s.seq.unit ≠ .init) :
    (s.during.headD [] = ws.map (fun w => .wr w.1 w.2) →
      exec (.init r) s = .next
        { s with
          fb := s.fb.produceAll ws
          during := s.during.tail
          status := .invalidArgument
          trace := s.trace ++ [.cmd r 0b001#3] ++ writeEvents ws ++ [.ret r .invalidArgument] }) ∧
    (s.during.headD [] = [.putOff] →
      exec (.init r) s = .next
        { s with
          during := s.during.tail
          owed := s.owed ++ [(r, .invalidArgument)]
          trace := s.trace ++ [.cmd r 0b001#3] }) :=
  ⟨fun hd => exec_init_turnedAway hu hp (retTurnedAway_writes hd),
    fun hd => exec_init_turnedAway hu hp (retTurnedAway_putOff hd)⟩

/-! ## Inside a line -/

/-- A command turned away inside a line is answered two of the line's events later. -/
theorem sendLine_answers_turnedAway (s : State) (line : BitVec 16) (r : Req) (op : BitVec 3) (a : Nat) (b : Byte)
    (hd : s.during = [[.cmd r op], [.wr a b], [.answer s.owed.length]]) (hline : line.toNat < 240) (ha : a < 384000)
    (hl : s.lock = .free) (hu : s.seq.unit ≠ .init) (hp : s.pstate ≠ .initializing) (hop : IsTurnedAway op s.pstate)
    (hg : s.grants.get 0 = true) (hx : ∀ n, n < 2 → s.txAnswers.get n = .ok)
    (hc : ∀ n, n < 2 → s.ctlAnswers.get n = .ok) :
    exec (.sendLine line) s = .next
      { s with
        fb := s.fb.write a b
        hdr := headerBytes line
        ctl := { s.ctl with chipSelect := false }
        seq := ⟨s.seq.unit, .csDeassert, s.seq.ln, s.seq.pxi⟩
        status := .invalidArgument
        result := some .ok
        grants := s.grants.drop 1
        ctlAnswers := s.ctlAnswers.drop 2
        txAnswers := s.txAnswers.drop 2
        during := []
        trace := s.trace ++
          [.cmd r op, .set .chipSelect true true, .wr a b, .tx (headerBytes line) .ok, .ret r .invalidArgument,
            .tx s.lb .ok, .set .chipSelect false true] } := by
  have hcmd : envTurn (s.buffered line) = .ok () ((s.buffered line).nextSlot.turnedAway r op) :=
    envTurn_single hd (arrive_turnedAway hop hu hp)
  have hwr := envTurn_write (b := b)
    (s := (((s.buffered line).nextSlot.turnedAway r op).didSet .chipSelect true).setStep .txHeader) ha
    (congrArg List.tail hd)
  have hans := answerNow_last (owed := s.owed) (r := r) (st := .invalidArgument)
    (s := (((((((s.buffered line).nextSlot.turnedAway r op).didSet .chipSelect true).setStep .txHeader).nextSlot.written
      a b).didTx (headerBytes line)).setStep .txPayload).nextSlot) (by simpa using hl) (by simp)
  have hrun := sendLine_of_envTurns hline hg hcmd (by simpa using hc 0 (by decide)) hwr
    (by simpa using hx 0 (by decide)) (envTurn_single (i := .answer s.owed.length) (later := []) (by simp [hd]) hans)
    (by simpa using hx 1 (by decide)) (by simp [State.Quiet, hd]) (by simpa using hc 1 (by decide))
  rw [exec_sendLine_ok hrun]
  simp [State.buffered, State.nextSlot, State.turnedAway, State.written, State.answered, State.deasserted,
    State.didSet, State.didTx, State.setStep, State.setResult, State.emit, State.owe, Ctl.set, hd]

/-! ## Inside a refresh without a panel -/

/-- A return asked for while a refresh holds the lock is not given; asked for again after the release, it is. -/
theorem refresh_answers_turnedAway_after_release (s : State) (r q : Req) (op : BitVec 3) (hu : s.seq.unit = .idle)
    (hl : s.lock = .free) (hw : s.waitq = []) (hop : IsTurnedAway op s.pstate)
    (hp : s.pstate.NoPanel)
    (hd : s.during = [[], [.cmd q op, .answer s.owed.length], [.answer s.owed.length]]) :
    exec (.refresh r) s = .next
      { s with
        status := .invalidArgument
        policyS := s.policy
        caller := r
        arb := s.arb.drop 1
        during := []
        trace := s.trace ++
          [.cmd r 0b010#3, .acq r, .cmd q op, .rel r, .ret q .invalidArgument, .ret r .invalidArgument] } := by
  have hcmd : applyInput (.cmd q op) (s.grantedAlone r).begun.nextSlot =
      .ok () ((s.grantedAlone r).begun.nextSlot.turnedAway q op) :=
    arrive_turnedAway hop (show SeqUnit.refresh ≠ .init by decide) hp.not_initializing
  have hheld : applyInput (.answer s.owed.length) ((s.grantedAlone r).begun.nextSlot.turnedAway q op) =
      .ok () ((s.grantedAlone r).begun.nextSlot.turnedAway q op) :=
    (applyInput_answer _ _).trans (answerNow_held rfl)
  have hrel : envTurn (s.grantedAlone r).begun = .ok () ((s.grantedAlone r).begun.nextSlot.turnedAway q op) := by
    rw [envTurn_slot (congrArg List.tail hd), applyInputs_cons hcmd, applyInputs_cons hheld]
    rfl
  have hret : envTurn (((s.grantedAlone r).begun.nextSlot.turnedAway q op).released r) = .ok () _ :=
    envTurn_single (congrArg (List.tail ∘ List.tail) hd)
      (answerNow_last (owed := s.owed) (r := q) (st := .invalidArgument) rfl rfl)
  rw [exec_refresh_noPanel (by rw [hd]; rfl) hu hl hw hp hrel hret]
  simp [State.grantedAlone, State.begun, State.nextSlot, State.turnedAway, State.released, State.answered,
    State.returned, refreshOpening, State.setUnit, State.emit, State.owe, State.setStatus, Seq.setIdle_self hu,
    hw, hl, hd]

/-- A request that arrives just before the return of a refresh waits, and the return is given all the same. -/
theorem refresh_returns_before_waiter (s : State) (r q : Req) (hp : s.pstate.NoPanel) (hu : s.seq.unit = .idle)
    (hl : s.lock = .free) (hw : s.waitq = []) (hd : s.during = [[], [], [.cmd q 0b010#3, .putOff]]) :
    exec (.refresh r) s = .next
      { s with
        waitq := [(q, .refresh)]
        status := .invalidArgument
        policyS := s.policy
        caller := r
        arb := s.arb.drop 1
        during := []
        trace := s.trace ++ [.cmd r 0b010#3, .acq r, .rel r, .cmd q 0b010#3, .ret r .invalidArgument] } := by
  have hrel : envTurn (s.grantedAlone r).begun = .ok () (s.grantedAlone r).begun.nextSlot :=
    envTurn_headD_nil (congrArg (fun d => d.tail.headD []) hd)
  have hcmd : applyInput (.cmd q 0b010#3) ((s.grantedAlone r).begun.nextSlot.released r).nextSlot =
      .ok () (((s.grantedAlone r).begun.nextSlot.released r).nextSlot.requested q) :=
    requestRefresh_accepted (show SeqUnit.idle ≠ .init by decide) hp.not_initializing
  have hret : envTurn ((s.grantedAlone r).begun.nextSlot.released r) =
      .ok () (((s.grantedAlone r).begun.nextSlot.released r).nextSlot.requested q) := by
    rw [envTurn_slot (congrArg (List.tail ∘ List.tail) hd), applyInputs_cons hcmd]
    rfl
  rw [exec_refresh_noPanel (by rw [hd]; rfl) hu hl hw hp hrel hret]
  simp [State.grantedAlone, State.begun, State.nextSlot, State.released, State.requested, State.returned,
    refreshOpening, State.setUnit, State.emit, State.enqueue, State.setStatus, Seq.setIdle_self hu, hl, hd]

/-! ## At an idle block -/

/-- With nobody waiting the block gives the oldest return it owes. -/
theorem idle_gives_oldest_return (s : State) (r : Req) (st : Status) (rest : List (Req × Status))
    (hc : s.inFlight = none) (ho : s.ordered = none) (hport : s.port = [] ∨ ∃ p, s.port = none :: p)
    (hu : s.seq.unit = .idle) (hl : s.lock = .free) (hw : s.waitq = []) (hr : s.owed = (r, st) :: rest) :
    step s = .next
      { s with owed := rest, status := st, port := s.port.tail, trace := s.trace ++ [.ret r st] } := by
  rw [step_idle_turn hc ho hu hport, idleTurn, if_pos hw]
  refine Act.outcome_ok ((answerNow_owed (k := 0) (s := { s with port := s.port.tail }) hl (by rw [hr]; rfl)).trans ?_)
  rw [hr]; rfl

/-- Settles O49, part by part. -/
theorem answersMayComeLater : Obligations.AnswersMayComeLater := by
  refine ⟨init_return_comes_later, sendLine_answers_turnedAway, ?_, ?_, idle_gives_oldest_return⟩
  · intro s r q op hu hl hw hop hd
    have hcases : IsTurnedAway op s.pstate ∧ s.pstate.NoPanel := by
      rcases hop with ⟨hop, hp⟩ | ⟨rfl | rfl, hp⟩
      · exact ⟨.inl hop, hp⟩
      · exact ⟨.inr (.inl ⟨rfl, by rw [hp]; decide⟩), .inr hp⟩
      · exact ⟨.inr (.inr ⟨rfl, hp⟩), .inr hp⟩
    exact refresh_answers_turnedAway_after_release s r q op hu hl hw hcases.1 hcases.2 hd
  · intro s r q hc ho hport hp hu hl hw hd
    simp only [exists_and_left]
    exact ⟨_, refresh_returns_before_waiter s r q hp hu hl hw hd, rfl, rfl, rfl,
      step_refresh_waiting_noPanel rfl hc ho hport hu hl rfl hp⟩

end Sys2Proof.Machine
end

section
/-! SUPPORT. The decoder and the encoder, format by format, and what an observer makes of the words of a line
(30_encoding.md). -/

namespace Sys2Proof

/-! ## The line address in its two bytes -/

/-- `ADDR_HI` by the formula (30_encoding.md R84). -/
theorem addrHi_eq (line : BitVec 16) : addrHi line = BitVec.ofNat 8 (line.toNat / 256 % 4) := by
  apply BitVec.eq_of_toNat_eq
  have hmask (n : Nat) : n &&& 3 = n % 4 := Nat.and_two_pow_sub_one_eq_mod n 2
  simp [addrHi, Nat.shiftRight_eq_div_pow, hmask]
  omega

/-- `ADDR_LO` by the formula (30_encoding.md R84). -/
theorem addrLo_eq (line : BitVec 16) : addrLo line = BitVec.ofNat 8 (line.toNat % 256) := by
  apply BitVec.eq_of_toNat_eq
  have hmask (n : Nat) : n &&& 255 = n % 256 := Nat.and_two_pow_sub_one_eq_mod n 8
  simp [addrLo, hmask]

theorem toNat_addrHi (line : BitVec 16) : (addrHi line).toNat = line.toNat / 256 % 4 := by
  rw [addrHi_eq, BitVec.toNat_ofNat, Nat.mod_eq_of_lt]
  omega

theorem toNat_addrLo (line : BitVec 16) : (addrLo line).toNat = line.toNat % 256 := by
  rw [addrLo_eq, BitVec.toNat_ofNat, Nat.mod_eq_of_lt]
  omega

/-- Settles O19: the two address bytes by the formula; a line below 256 has no upper byte. -/
theorem headerCarriesTheLineAddress : Obligations.HeaderCarriesTheLineAddress := by
  intro line
  have hformula : headerBytes line = [0x01#8, 0x00#8, 0x00#8, 0x00#8, 0x00#8, BitVec.ofNat 8 (line.toNat / 256 % 4),
      BitVec.ofNat 8 (line.toNat % 256)] := by
    rw [headerBytes, addrHi_eq, addrLo_eq]
  refine ⟨hformula, fun hline => ?_⟩
  rw [hformula, Nat.div_eq_of_lt (by omega), Nat.mod_eq_of_lt (by omega : line.toNat < 256)]

/-- The line index of the two address bytes, the upper one with nothing but its two address bits. -/
theorem toNat_lineOfBytes {hi lo : Byte} (hhi : hi.toNat < 4) :
    (BitVec.ofNat 16 (256 * hi.toNat + lo.toNat)).toNat = 256 * hi.toNat + lo.toNat := by
  rw [BitVec.toNat_ofNat, Nat.mod_eq_of_lt]
  omega

/-- The header of the line that two address bytes name holds these bytes. -/
theorem headerBytes_lineOfBytes {hi lo : Byte} (hhi : hi.toNat < 4) :
    headerBytes (BitVec.ofNat 16 (256 * hi.toNat + lo.toNat)) = [Config.modeDataUpdate, 0#8, 0#8, 0#8, 0#8, hi, lo] := by
  have h : addrHi (BitVec.ofNat 16 (256 * hi.toNat + lo.toNat)) = hi := by
    apply BitVec.eq_of_toNat_eq
    rw [toNat_addrHi, toNat_lineOfBytes hhi]
    omega
  have l : addrLo (BitVec.ofNat 16 (256 * hi.toNat + lo.toNat)) = lo := by
    apply BitVec.eq_of_toNat_eq
    rw [toNat_addrLo, toNat_lineOfBytes hhi]
    omega
  rw [headerBytes, h, l]

/-! ## The decoder, format by format -/

/-- The header decodes exactly when its mode byte is 0x01 and its reserved bits are zero (30_encoding.md R83, R84, R92). -/
theorem decodeHeader_eq_ok_iff {b0 b1 b2 b3 b4 hi lo : Byte} {i : Instr} :
    decodeHeader b0 b1 b2 b3 b4 hi lo = .ok i ↔
      (b0 = Config.modeDataUpdate ∧ b1 = 0#8 ∧ b2 = 0#8 ∧ b3 = 0#8 ∧ b4 = 0#8) ∧ hi.toNat < 4 ∧
        i = .sendLine (BitVec.ofNat 16 (256 * hi.toNat + lo.toNat)) := by
  unfold decodeHeader
  split
  next hmode => exact iff_of_false nofun fun ⟨⟨h0, _⟩, _⟩ => hmode h0
  next hmode =>
    split
    next hreserved => exact iff_of_false nofun fun ⟨⟨_, h1, h2, h3, h4⟩, _⟩ => by simp [h1, h2, h3, h4] at hreserved
    next hreserved =>
      split
      next hhigh => exact iff_of_false nofun fun ⟨_, hhi, _⟩ => Nat.not_lt.2 hhigh hhi
      next hhigh =>
        have hzero : b1 = 0#8 ∧ b2 = 0#8 ∧ b3 = 0#8 ∧ b4 = 0#8 := by simpa using hreserved
        constructor
        · rintro ⟨⟩
          exact ⟨⟨not_not.1 hmode, hzero⟩, Nat.lt_of_not_le hhigh, rfl⟩
        · rintro ⟨-, -, rfl⟩
          rfl

/-- The header of a line whose index fits the address field decodes to that line. -/
theorem decodeWire_headerBytes {line : BitVec 16} (hline : line.toNat < 1024) :
    decodeWire (headerBytes line) = .ok (.sendLine line) := by
  refine decodeHeader_eq_ok_iff.2 ⟨⟨rfl, rfl, rfl, rfl, rfl⟩, ?_, ?_⟩
  · rw [toNat_addrHi]
    omega
  · congr 1
    apply BitVec.eq_of_toNat_eq
    rw [toNat_addrHi, toNat_addrLo, BitVec.toNat_ofNat]
    omega

/-- Bytes that decode are the bytes of the instruction they decode to, which is well-formed. -/
theorem encode_of_decodeWire {bytes : List Byte} {i : Instr} (h : decodeWire bytes = .ok i) :
    encode i = .wire bytes ∧ i.wf = true := by
  unfold decodeWire at h
  split at h
  case h_1 b0 b1 b2 b3 b4 hi lo =>
    obtain ⟨⟨rfl, rfl, rfl, rfl, rfl⟩, hhi, rfl⟩ := decodeHeader_eq_ok_iff.1 h
    refine ⟨congrArg Code.wire (headerBytes_lineOfBytes hhi), ?_⟩
    simp only [Instr.wf, toNat_lineOfBytes hhi, decide_eq_true_eq]
    omega
  case h_2 b =>
    split at h
    · cases h
      exact ⟨by rw [‹b = _›]; rfl, rfl⟩
    · cases h
  case h_3 b0 b1 =>
    split at h
    next hb =>
      cases h
      obtain ⟨rfl, rfl⟩ := hb
      exact ⟨rfl, rfl⟩
    next => cases h
  case h_4 => cases h

/-- The opcode of a host command (30_encoding.md R90). -/
def HostOp.opcode : HostOp → BitVec 3
  | .init => 0b001#3
  | .refresh => 0b010#3
  | .blank => 0b011#3
  | .unblank => 0b100#3
  | .detach => 0b101#3

theorem encode_toInstr (h : HostOp) (r : Req) : encode (h.toInstr r) = .port r h.opcode := by cases h <;> rfl

/-- An opcode that decodes is that of the command it decodes to. -/
theorem opcode_of_decodeOp {op : BitVec 3} {h : HostOp} (hop : decodeOp op = .ok h) : h.opcode = op := by
  cases h <;> revert op <;> decide

/-- A reserved opcode decodes to no instruction (30_encoding.md R92 (a)). -/
theorem decode_port_reserved {op : BitVec 3} (h : op = 0#3 ∨ op = 6#3 ∨ op = 7#3) (r : Req) :
    decode (.port r op) = .error (.reservedOpcode op) := by
  rcases h with rfl | rfl | rfl <;> rfl

/-- A command at the port that decodes is one of the five host commands of its requester. -/
theorem decode_port_eq_ok {r : Req} {op : BitVec 3} {i : Instr} (hd : decode (.port r op) = .ok i) :
    ∃ h : HostOp, decodeOp op = .ok h ∧ i = h.toInstr r := by
  unfold decode at hd
  dsimp only at hd
  split at hd
  · cases hd
    exact ⟨_, ‹_›, rfl⟩
  · cases hd

/-! ## Decoder and encoder agree -/

/-- Settles O1, row by row of the opcode table. -/
theorem decodeOfEncodeIsTheInstruction : Obligations.DecodeOfEncodeIsTheInstruction := by
  intro i hi
  cases i with
  | sendLine line => exact decodeWire_headerBytes (of_decide_eq_true hi)
  | encodeRow y => exact if_pos (of_decide_eq_true hi)
  | _ => rfl

/-- Settles O2, format by format. -/
theorem encodeOfDecodeIsTheWords : Obligations.EncodeOfDecodeIsTheWords := by
  intro c i hd
  cases c with
  | port r op =>
    obtain ⟨h, hop, rfl⟩ := decode_port_eq_ok hd
    exact ⟨by rw [encode_toInstr, opcode_of_decodeOp hop], by cases h <;> rfl⟩
  | wire bytes => exact encode_of_decodeWire hd
  | row y =>
    unfold decode at hd
    dsimp only at hd
    split at hd
    · cases hd
      exact ⟨rfl, decide_eq_true ‹_›⟩
    · cases hd

/-- Settles O3: each of the words is what the encoder gives for the instruction it stands for. -/
theorem specWordsDecode : Obligations.SpecWordsDecode :=
  have decodes (i : Instr) (hi : i.wf = true) := decodeOfEncodeIsTheInstruction i hi
  ⟨decodes (.init 7) rfl, decodes (.refresh 7) rfl, decodes (.blank 7) rfl, decodes (.unblank 7) rfl,
    decodes (.detach 7) rfl, decodes (.sendLine 239#16) rfl, decodes .trailer rfl, decodes .allClear rfl⟩

/-- The 56-bit header pattern of the opcode table is the header's bytes (30_encoding.md R95). -/
theorem bytesBE_tableHeader {a : Nat} (ha : a < 1024) :
    bytesBE 7 (0x01000000000000 + a) = headerBytes (BitVec.ofNat 16 a) := by
  have hline : (BitVec.ofNat 16 a).toNat = a := by
    rw [BitVec.toNat_ofNat, Nat.mod_eq_of_lt]
    omega
  rw [(headerCarriesTheLineAddress _).1, hline]
  simp only [bytesBE, List.cons.injEq, and_true]
  refine ⟨?_, ?_, ?_, ?_, ?_, ?_, ?_⟩ <;>
  · apply BitVec.eq_of_toNat_eq
    simp only [BitVec.toNat_ofNat]
    omega

/-- Settles O4: the pattern's bytes are the header of line `a`. -/
theorem tableHeadersDecode : Obligations.TableHeadersDecode := by
  intro a ha
  have hwf : (Instr.sendLine (BitVec.ofNat 16 a)).wf = true := by
    simp only [Instr.wf, BitVec.toNat_ofNat, decide_eq_true_eq]
    omega
  have hcode : tableCode 56 (0x01000000000000 + a) = some (encode (.sendLine (BitVec.ofNat 16 a))) := by
    unfold tableCode
    rw [if_neg (by omega), if_neg (by decide), if_neg (by decide), if_pos rfl, bytesBE_tableHeader ha]
    rfl
  rw [decodeTableWord, hcode]
  simp only [decodeOfEncodeIsTheInstruction _ hwf]

end Sys2Proof
end

section
/-! SUPPORT. The meanings of a reserved opcode and of TRAILER, and the frames an observer of chip-select finds
(30_encoding.md R86, R89, R92). -/

namespace Sys2Proof.Machine

/-- Settles O15. -/
theorem trailerWritesTwoZeroBytes : Obligations.TrailerWritesTwoZeroBytes := fun _ => rfl

/-- Settles O5: the command is issued, and its return comes right after the producers' bytes that arrive before it. -/
theorem reservedOpcodesAreAnswered : Obligations.ReservedOpcodesAreAnswered := by
  intro s r op rest ws hop hws hc ho hu hp hport
  have hissue : issue r op { s with port := rest } = .ok () ({ s with port := rest }.emit (.cmd r op)) :=
    issue_accepted (by simp [hu]) hp
  rw [step_idle hc ho hu, idleStep, hport]
  simp only [decode_port_reserved hop]
  exact Act.outcome_ok ((Act.bind_ok hissue).trans (retTurnedAway_writes hws))

/-! ## Frames -/

/-- Outside a frame an observer passes over every event but an assert. -/
theorem framesFrom_none_cons {e : Event} (he : e.isAssert = false) (es : List Event) :
    framesFrom none (e :: es) = framesFrom none es := by
  cases e with
  | set l v ok =>
    cases l with
    | chipSelect =>
      cases v with
      | true => cases he
      | false => rfl
    | _ => rfl
  | _ => rfl

/-- What comes before the first assert is in no frame. -/
theorem framesFrom_none_append {es : List Event} (h : ∀ e ∈ es, e.isAssert = false) (fs : List Event) :
    framesFrom none (es ++ fs) = framesFrom none fs := by
  induction es with
  | nil => rfl
  | cons e es ih =>
    rw [List.cons_append, framesFrom_none_cons (h e (by simp)), ih fun e' he' => h e' (by simp [he'])]

/-- The first frame after the reads of a line is the header of the line followed by its payload. -/
theorem framesFrom_lineEvents (m : Memory) (y : Nat) (es : List Event) :
    framesFrom none (lineEvents m y ++ es) =
      (headerBytes (BitVec.ofNat 16 y) ++ rowPayload m y) :: framesFrom none es := by
  have hreads : ∀ e ∈ rowEvents m y, e.isAssert = false := by
    intro e he
    obtain ⟨x, -, rfl⟩ := List.mem_map.1 he
    rfl
  rw [lineEvents, List.append_assoc, framesFrom_none_append hreads]
  simp [frameEvents, framesFrom, Event.wireBytes]

/-- The frames of whole lines, one after the other. -/
theorem frames_lines (m : Memory) (ys : List Nat) :
    frames (ys.flatMap (lineEvents m)) = ys.map fun y => headerBytes (BitVec.ofNat 16 y) ++ rowPayload m y := by
  induction ys with
  | nil => rfl
  | cons y ys ih =>
    rw [List.flatMap_cons, frames, framesFrom_lineEvents, ← frames, ih, List.map_cons]

theorem rowPayload_length (m : Memory) (y : Nat) : (rowPayload m y).length = 152 := by
  simp [rowPayload, packRow_length, rowWords, packedLength]

/-- Settles O29. -/
theorem observerFindsOneFramePerLine : Obligations.ObserverFindsOneFramePerLine := by
  intro m n
  have hframes := frames_lines m (List.range n)
  refine ⟨hframes, fun f hf => ?_⟩
  rw [linesEvents, hframes] at hf
  obtain ⟨y, -, rfl⟩ := List.mem_map.1 hf
  exact ⟨by rw [List.length_append, rowPayload_length]; rfl, rfl⟩

end Sys2Proof.Machine
end

section
/-! SUPPORT. Every event a step emits is lawful: a triple for actions that follows the trace, and the registers from which
the transport calls of a line take their bytes. -/

namespace Sys2Proof.Machine

variable {α β : Type} {s t u : State}

/-! ## Traces that grow by lawful events -/

/-- The trace of `t` is that of `s` and lawful events after it. -/
def State.Extends (s t : State) : Prop := ∃ es : List Event, t.trace = s.trace ++ es ∧ ∀ e ∈ es, e.Lawful

theorem State.Extends.silent (h : t.trace = s.trace) : s.Extends t := ⟨[], by simp [h], by simp⟩

theorem State.Extends.event {e : Event} (he : e.Lawful) (h : t.trace = s.trace ++ [e]) : s.Extends t :=
  ⟨[e], h, by simpa using he⟩

theorem State.Extends.trans (h : s.Extends t) (h' : t.Extends u) : s.Extends u := by
  obtain ⟨ds, hd, hds⟩ := h
  obtain ⟨es, he, hes⟩ := h'
  exact ⟨ds ++ es, by rw [he, hd, List.append_assoc], fun e hm => (List.mem_append.1 hm).elim (hds e) (hes e)⟩

/-! ## Triples -/

/-- From every state with `P` the action emits only lawful events, however it ends, and ends well only with `Q` of its
result and state. -/
def Act.Lawful (P : State → Prop) (x : Act α) (Q : α → State → Prop) : Prop :=
  ∀ s, P s →
    match x s with
    | .ok a t => s.Extends t ∧ Q a t
    | .error _ t => s.Extends t

namespace Act.Lawful

variable {P P' : State → Prop} {Q Q' : α → State → Prop} {R : β → State → Prop} {x y : Act α} {f : α → Act β}

theorem pure {a : α} (h : ∀ s, P s → Q a s) : Act.Lawful P (pure a) Q := fun s hs => ⟨.silent rfl, h s hs⟩

theorem stop (e : Stop) : Act.Lawful P (Act.stop e) Q := fun _ _ => State.Extends.silent rfl

/-- An update that emits nothing. -/
theorem update {g : State → State} {Q : Unit → State → Prop} (hg : ∀ s, (g s).trace = s.trace)
    (h : ∀ s, P s → Q () (g s)) : Act.Lawful P (Act.update g) Q := fun s hs => ⟨.silent (hg s), h s hs⟩

/-- An update that emits one event. -/
theorem update_event {g : State → State} {Q : Unit → State → Prop} {e : Event} (he : e.Lawful)
    (hg : ∀ s, (g s).trace = s.trace ++ [e]) (h : ∀ s, P s → Q () (g s)) : Act.Lawful P (Act.update g) Q :=
  fun s hs => ⟨.event he (hg s), h s hs⟩

theorem bind (hx : Act.Lawful P x Q) (hf : ∀ a, Act.Lawful (Q a) (f a) R) : Act.Lawful P (x >>= f) R := by
  intro s hs
  have h := hx s hs
  cases hxs : x s with
  | ok a t =>
    rw [hxs] at h
    rw [Act.bind_ok hxs]
    obtain ⟨hst, hq⟩ := h
    have h' := hf a t hq
    cases hft : f a t with
    | ok b v =>
      rw [hft] at h'
      exact ⟨hst.trans h'.1, h'.2⟩
    | error e v =>
      rw [hft] at h'
      exact hst.trans h'
  | error e t =>
    rw [hxs] at h
    rw [Act.bind_error hxs]
    exact h

/-- A silent update that keeps `P`, and what follows it. -/
theorem update_bind {g : State → State} {f : Unit → Act β} (hg : ∀ s, (g s).trace = s.trace)
    (hP : ∀ s, P s → P (g s)) (hf : Act.Lawful P (f ()) R) : Act.Lawful P (Act.update g >>= f) R :=
  bind (update (Q := fun _ => P) hg hP) fun _ => hf

/-- What follows a read knows that its value was read in a state with `P`. -/
theorem read_bind {g : State → α} (hf : ∀ s, P s → Act.Lawful P (f (g s)) R) : Act.Lawful P (Act.read g >>= f) R :=
  fun s hs => hf s hs s hs

theorem ite {c : Prop} [Decidable c] (hx : Act.Lawful P x Q) (hy : Act.Lawful P y Q) :
    Act.Lawful P (if c then x else y) Q := by
  split
  · exact hx
  · exact hy

/-- A triple may begin with more and end with less. -/
theorem imp (h : Act.Lawful P x Q) (hP : ∀ s, P' s → P s) (hQ : ∀ a s, Q a s → Q' a s) : Act.Lawful P' x Q' := by
  intro s hs
  have h := h s (hP s hs)
  cases hxs : x s with
  | ok a t => rw [hxs] at h; exact ⟨h.1, hQ a t h.2⟩
  | error e t => rw [hxs] at h; exact h

/-- The next state that a lawful action gives has a longer trace by lawful events only. -/
theorem next {x : Act Unit} {Q : Unit → State → Prop} (h : Act.Lawful P x Q) (hs : P s) (ht : x.outcome s = .next t) :
    s.Extends t := by
  have h := h s hs
  unfold Act.outcome at ht
  cases hx : x s with
  | ok a v => rw [hx] at h ht; cases ht; exact h.1
  | error e v => rw [hx] at h ht; cases e <;> cases ht <;> exact h

end Act.Lawful

/-- The action emits only lawful events, wherever it begins. -/
abbrev Act.AlwaysLawful (x : Act α) : Prop := Act.Lawful (fun _ => True) x fun _ _ => True

/-- What is lawful wherever it begins is lawful where more is known. -/
theorem Act.AlwaysLawful.weaken {P : State → Prop} {x : Act α} (h : Act.AlwaysLawful x) :
    Act.Lawful P x fun _ _ => True := h.imp (fun _ _ => trivial) fun _ _ => id

/-! ## The registers of a line -/

/-- The registers from which a line is sent, `LB`, `HDR` and the sampled words, have `P`. -/
def State.LineHas (P : List Byte → List Byte → List Word → Prop) (s : State) : Prop := P s.lb s.hdr s.px

/-- The action emits only lawful events and leaves the registers of a line as they are, unless it stops. -/
abbrev Act.Calm (P : List Byte → List Byte → List Word → Prop) (x : Act α) : Prop :=
  Act.Lawful (State.LineHas P) x fun _ => State.LineHas P

/-- What is calm whatever the registers of a line hold is lawful wherever it begins. -/
theorem Act.Calm.always {x : Act α} (h : Act.Calm (fun _ _ _ => True) x) : Act.AlwaysLawful x := h

/-- A transport call with these bytes is lawful, whatever it answers. -/
def LawfulBytes (bytes : List Byte) : Prop := ∀ res, (Event.tx bytes res).Lawful

theorem lawfulBytes_clearFrame : LawfulBytes clearFrame := .txClear

theorem lawfulBytes_headerBytes {line : BitVec 16} (h : line.toNat < 240) : LawfulBytes (headerBytes line) := by
  rw [(headerCarriesTheLineAddress line).2 h]
  exact .txHeader _ h

theorem lawfulBytes_packRow {px : List Word} (h : px.length = 400) : LawfulBytes (packRow px) := .txPayload px h

/-- The reads of a row are aligned and inside the buffer (20_memory.md R55). -/
theorem lawful_rd_pixelAddr {y : Nat} (hy : y < 240) (x : Fin 400) (w : Word) :
    (Event.rd (pixelAddr y x) w).Lawful := by
  have hx := x.isLt
  rw [pixelAddr_eq]
  exact .rd _ w (by omega) (by omega)

variable {P : List Byte → List Byte → List Word → Prop}

/-! ## The primitives alone -/

theorem ctlSetNow_calm {l : Line} (hl : l ≠ .comInversionInput) (v : Bool) : Act.Calm P (ctlSetNow l v) := by
  intro s h
  by_cases ha : s.ctlAnswers.get 0 = .never
  · rw [ctlSetNow_never ha]
    exact .silent rfl
  · rw [ctlSetNow_answers ha]
    exact ⟨.event (.set l v _ hl) rfl, h⟩

theorem txNow_calm {bytes : List Byte} (hb : LawfulBytes bytes) : Act.Calm P (txNow bytes) := by
  intro s h
  cases ha : s.txAnswers.get 0 with
  | ok => rw [txNow_ok ha]; exact ⟨.event (hb _) rfl, h⟩
  | fail n => rw [txNow_fail ha]; exact ⟨.event (hb _) rfl, h⟩
  | never => rw [txNow_never ha]; exact .silent rfl

theorem rdNow_calm {a : Nat} (ha : ∀ w, (Event.rd a w).Lawful) : Act.Calm P (rdNow a) := by
  intro s h
  by_cases hin : a + 3 < Config.fbBytes
  · cases hr : s.rdAnswers.get 0 with
    | true => rw [rdNow_returns hin hr]; exact ⟨.event (ha _) rfl, h⟩
    | false => rw [rdNow_never hin hr]; exact .silent rfl
  · rw [rdNow_outside hin]
    exact .silent rfl

theorem waitNow_calm (d : Delay) : Act.Calm P (waitNow d) := by
  intro s h
  cases ha : s.waitAnswers.get 0 with
  | true => rw [waitNow_ends ha]; exact ⟨.event (.wait d) rfl, h⟩
  | false => rw [waitNow_never ha]; exact .silent rfl

theorem retNow_calm (r : Req) (st : Status) : Act.Calm P (retNow r st) :=
  .update_event (.ret r st) (fun _ => rfl) fun _ => id

theorem answerNow_calm (k : Nat) : Act.Calm P (answerNow k) := by
  intro s h
  cases hl : s.lock with
  | held r => rw [answerNow_held hl]; exact ⟨.silent rfl, h⟩
  | free =>
    cases ho : s.owed[k]? with
    | none => rw [answerNow_none ho]; exact ⟨.silent rfl, h⟩
    | some c => rw [answerNow_owed hl ho]; exact ⟨.event (.ret c.1 c.2) rfl, h⟩

theorem grantNow_calm : Act.Calm P grantNow := fun _ h => ⟨.silent rfl, h⟩

theorem issue_calm (r : Req) (op : BitVec 3) : Act.Calm P (issue r op) := by
  intro s h
  by_cases hi : s.seq.unit = .init ∨ s.pstate = .initializing
  · rw [issue_refused hi]
    exact .silent rfl
  · obtain ⟨hu, hp⟩ := not_or.1 hi
    rw [issue_accepted hu hp]
    exact ⟨.event (.cmd r op) rfl, h⟩

theorem produceByte_calm (a : Nat) (b : Byte) : Act.Calm P (produceByte a b) := by
  intro s h
  rw [produceByte_apply]
  by_cases ha : a < Config.fbBytes
  · rw [if_pos ha]
    exact ⟨.event (.wr a b ha) rfl, h⟩
  · rw [if_neg ha]
    exact ⟨.silent rfl, h⟩

/-! ## What arrives inside an operation -/

/-- BLANK and UNBLANK have one shape. -/
theorem blanking_calm {r : Req} {op : BitVec 3} {v : Bool} {p : PState} :
    Act.Calm P (do
      issue r op
      let q ← Act.read State.pstate
      if q.isUp then
        let _ ← ctlSetNow .displayEnable v
        Act.update fun s => s.setPState p
        retNow r .ok
      else
        retNow r .invalidArgument) :=
  (issue_calm r op).bind fun _ => .read_bind fun _ _ => .ite
    ((ctlSetNow_calm (by decide) v).bind fun _ => .update_bind (fun _ => rfl) (fun _ => id) <| retNow_calm r _)
    (retNow_calm r _)

theorem requestRefresh_calm (r : Req) : Act.Calm P (requestRefresh r) :=
  (issue_calm r _).bind fun _ => .update (fun _ => rfl) fun _ => id

theorem requestDetach_calm (r : Req) : Act.Calm P (requestDetach r) :=
  (issue_calm r _).bind fun _ => .read_bind fun _ _ => .ite (.pure fun _ => id)
    (.update_bind (fun _ => rfl) (fun _ => id) <| .pure fun _ => id)

theorem turnAway_calm (r : Req) : Act.Calm P (turnAway r) := .update (fun _ => rfl) fun _ => id

theorem arrive_calm (r : Req) (op : BitVec 3) : Act.Calm P (arrive r op) := by
  unfold arrive
  split
  · exact (issue_calm r _).bind fun _ => .read_bind fun _ _ => .ite (.stop _) (turnAway_calm r)
  · exact requestRefresh_calm r
  · exact blanking_calm
  · exact blanking_calm
  · exact (requestDetach_calm r).bind fun _ => .ite (.pure fun _ => id) (turnAway_calm r)
  · exact (issue_calm r op).bind fun _ => turnAway_calm r

/-- A reset writes the registers of a line, but the operation stops there. -/
theorem applyInput_calm (i : Input) : Act.Calm P (applyInput i) :=
  match i with
  | .cmd r op => arrive_calm r op
  | .wr a b => produceByte_calm a b
  | .policy _ => .update (fun _ => rfl) fun _ => id
  | .reset _ => .bind (.update (Q := fun _ _ => True) (fun _ => rfl) fun _ _ => trivial) fun _ => .stop _
  | .answer k => answerNow_calm k
  | .putOff => .pure fun _ => id

theorem applyInputs_calm : ∀ is : List Input, Act.Calm P (applyInputs is)
  | [] => .pure fun _ => id
  | i :: is => by
    intro s h
    have hi := applyInput_calm i s h
    unfold applyInputs
    cases hx : applyInput i s with
    | ok a t =>
      rw [hx] at hi
      obtain ⟨hst, ht⟩ := hi
      have his := applyInputs_calm is t ht
      dsimp only
      cases hy : applyInputs is t with
      | ok b v => rw [hy] at his; exact ⟨hst.trans his.1, his.2⟩
      | error e v => rw [hy] at his; exact hst.trans his
    | error e t =>
      rw [hx] at hi
      exact hi

theorem envTurn_calm : Act.Calm P envTurn := by
  intro s h
  unfold envTurn
  cases hd : s.during with
  | nil => exact ⟨.silent rfl, h⟩
  | cons slot later => exact applyInputs_calm slot { s with during := later } h

theorem openTurn_calm : Act.Calm P openTurn := by
  intro s h
  unfold openTurn
  cases hd : s.during with
  | nil => exact ⟨.silent rfl, h⟩
  | cons slot later =>
    have ha := applyInputs_calm (s.beforeInit slot)
      { s with during := later, port := (slot.drop (s.beforeInit slot).length).map some ++ s.port } h
    dsimp only
    generalize applyInputs (s.beforeInit slot) _ = e at ha ⊢
    cases e with
    | ok a t => exact ha
    | error e t => exact ha

/-! ## Calls inside an operation -/

theorem ctlSet_calm {l : Line} (hl : l ≠ .comInversionInput) (v : Bool) : Act.Calm P (ctlSet l v) :=
  envTurn_calm.bind fun _ => ctlSetNow_calm hl v

theorem tx_calm {bytes : List Byte} (hb : LawfulBytes bytes) : Act.Calm P (tx bytes) :=
  envTurn_calm.bind fun _ => txNow_calm hb

theorem rd_calm {a : Nat} (ha : ∀ w, (Event.rd a w).Lawful) : Act.Calm P (rd a) :=
  envTurn_calm.bind fun _ => rdNow_calm ha

theorem wait_calm (d : Delay) : Act.Calm P (wait d) := envTurn_calm.bind fun _ => waitNow_calm d

theorem release_calm (r : Req) : Act.Calm P (release r) :=
  envTurn_calm.bind fun _ => .bind (.update_event (.rel r) (fun _ => rfl) fun _ => id) fun _ =>
    .update (fun _ => rfl) fun _ => id

theorem ret_calm (r : Req) (st : Status) : Act.Calm P (ret r st) := envTurn_calm.bind fun _ => retNow_calm r st

theorem retTurnedAway_calm (r : Req) : Act.Calm P (retTurnedAway r) :=
  .read_bind fun _ _ => openTurn_calm.bind fun _ => .ite (turnAway_calm r) (retNow_calm r _)

/-! ## A line -/

/-- `LB` holds the bytes of a lawful transport call. -/
abbrev State.LbLawful : State → Prop := State.LineHas fun lb _ _ => LawfulBytes lb

/-- `LB` and `HDR` hold the bytes of lawful transport calls. -/
abbrev State.LineLawful : State → Prop := State.LineHas fun lb hdr _ => LawfulBytes lb ∧ LawfulBytes hdr

theorem readPixels_lawful {y : Nat} (hy : y < 240) : ∀ (xs : List (Fin 400)) (n : Nat),
    Act.Lawful (State.LineHas fun _ _ px => px.length = n) (readPixels y xs) fun _ =>
      State.LineHas fun _ _ px => px.length = n + xs.length
  | [], _ => .pure fun _ => id
  | x :: xs, n => by
    refine .update_bind (fun _ => rfl) (fun _ => id) <| (rd_calm (lawful_rd_pixelAddr hy x)).bind fun w =>
      .bind (.update (Q := fun _ => State.LineHas fun _ _ px => px.length = n + 1) (fun _ => rfl) fun s h => ?_)
        fun _ => ?_
    · simpa [State.LineHas, State.sample] using h
    · simpa [Nat.add_assoc, Nat.add_comm 1] using readPixels_lawful hy xs (n + 1)

/-- ENCODE_ROW of a row reads inside the buffer and leaves a packed row of 400 pixels (40_pixel_encoder.md R105). -/
theorem encodeRow_lawful {y : Nat} (hy : y < 240) :
    Act.Lawful (fun _ => True) (encodeRow y) fun _ => State.LbLawful := by
  refine .bind (.update (Q := fun _ => State.LineHas fun _ _ px => px.length = 0) (fun _ => rfl) fun _ _ => rfl)
    fun _ => (readPixels_lawful hy _ 0).bind fun _ => .update (fun _ => rfl) fun s h => ?_
  exact lawfulBytes_packRow (by simpa [State.LineHas, Config.width] using h)

theorem closeLine_lawful (r1 r2 : Bool) : Act.AlwaysLawful (closeLine r1 r2) :=
  .update_bind (fun _ => rfl) (fun _ => id) <|
    (ctlSet_calm (by decide) false).always.bind fun _ => .read_bind fun _ _ =>
      .update_bind (fun _ => rfl) (fun _ => id) <| .pure fun _ => id

theorem sendPayload_lawful : Act.Lawful State.LbLawful sendPayload fun _ _ => True :=
  .read_bind fun _ hlb => (tx_calm hlb).bind fun r2 => (closeLine_lawful true r2).weaken

theorem sendHeader_lawful : Act.Lawful State.LineLawful sendHeader fun _ _ => True :=
  .read_bind fun _ hline => (tx_calm hline.2).bind fun _ => .ite
    (.bind (.update (Q := fun _ => State.LbLawful) (fun _ => rfl) fun _ h => h.1) fun _ => sendPayload_lawful)
    (closeLine_lawful false false).weaken

theorem assertLine_lawful : Act.Lawful State.LineLawful assertLine fun _ _ => True :=
  (ctlSet_calm (by decide) true).bind fun _ => .update_bind (fun _ => rfl) (fun _ => id) sendHeader_lawful

/-- A line that is not rejected has the header of a line below 240 (41_line_framer.md R121, R123). -/
theorem sendLine_lawful (line : BitVec 16) : Act.Lawful State.LbLawful (sendLine line) fun _ _ => True := by
  unfold sendLine
  split
  next => exact .pure fun _ _ => trivial
  next hline =>
    refine grantNow_calm.bind fun _ => .ite (.bind ?_ fun _ => assertLine_lawful) (.pure fun _ _ => trivial)
    exact .update (fun _ => rfl) fun _ hlb => ⟨hlb, lawfulBytes_headerBytes (Nat.lt_of_not_le hline)⟩

theorem afterLine_lawful (st : Status) {rest : Act Status} (h : Act.AlwaysLawful rest) :
    Act.AlwaysLawful (afterLine st rest) :=
  .read_bind fun _ _ => .ite (.pure fun _ => id) <| .update_bind (fun _ => rfl) (fun _ => id) <|
    (wait_calm _).always.bind fun _ => h

theorem lineLoop_lawful : ∀ ns, Act.AlwaysLawful (lineLoop ns)
  | [] => .pure fun _ => id
  | n :: ns => .update_bind (fun _ => rfl) (fun _ => id) <|
      (encodeRow_lawful n.isLt).bind fun _ => (sendLine_lawful _).bind fun st =>
        afterLine_lawful st (lineLoop_lawful ns)

end Sys2Proof.Machine
end

section
/-! SUPPORT. Every operation at an idle block, and every step, emits only lawful events. -/

namespace Sys2Proof.Machine

variable {s t : State}

/-! ## Operations that hold the lock -/

theorem finishRefresh_lawful (r : Req) (st : Status) : Act.AlwaysLawful (finishRefresh r st) :=
  (release_calm r).always.bind fun _ => (ret_calm r st).always

theorem refreshBody_lawful (r : Req) : Act.AlwaysLawful (refreshBody r) :=
  .update_bind (fun _ => rfl) (fun _ => id) <| .read_bind fun _ _ => .ite (.stop _) <|
    .ite (finishRefresh_lawful r _) <| (lineLoop_lawful _).bind fun st => finishRefresh_lawful r st

theorem detachFinish_lawful (r : Req) : Act.AlwaysLawful (detachFinish r) :=
  (ctlSet_calm (by decide) _).always.bind fun _ => .update_bind (fun _ => rfl) (fun _ => id) <|
    finishRefresh_lawful r .ok

theorem detachLower_lawful (r : Req) : Act.AlwaysLawful (detachLower r) :=
  (ctlSet_calm (by decide) _).always.bind fun _ =>
    .update_bind (fun s => by split <;> rfl) (fun _ => id) <| detachFinish_lawful r

theorem detachBody_lawful (r : Req) : Act.AlwaysLawful (detachBody r) :=
  .update_bind (fun _ => rfl) (fun _ => id) <| .read_bind fun _ _ => .ite (.stop _) <|
    .ite (finishRefresh_lawful r _) <| .update_bind (fun _ => rfl) (fun _ => id) <| detachLower_lawful r

theorem grantLock_lawful : Act.AlwaysLawful grantLock := by
  intro s _
  by_cases hl : s.lock = .free
  · cases hw : s.waitq[s.arb.get 0 % s.waitq.length]? with
    | none => unfold grantLock; rw [if_pos hl, hw]; exact ⟨.silent rfl, trivial⟩
    | some w => rw [grantLock_free hl hw]; exact ⟨.event (.acq w.1) rfl, trivial⟩
  · rw [grantLock_held hl]
    exact ⟨.silent rfl, trivial⟩

theorem serve_lawful : Act.AlwaysLawful serve := by
  refine openTurn_calm.always.bind fun _ => .ite (.pure fun _ => id) <| grantLock_lawful.bind fun g => ?_
  match g with
  | none => exact .pure fun _ => id
  | some (r, .refresh) => exact refreshBody_lawful r
  | some (r, .detach) => exact detachBody_lawful r

/-! ## INIT -/

theorem initStep_lawful (k : InitStep) : Act.AlwaysLawful (initStep k) := by
  cases k with
  | settle => exact (wait_calm _).always.bind fun _ => .pure fun _ => id
  | clearWait => exact (wait_calm _).always.bind fun _ => .pure fun _ => id
  | allClear => exact (tx_calm lawfulBytes_clearFrame).always.bind fun _ => .pure fun _ => id
  | _ => exact (ctlSet_calm (by decide) _).always.bind fun _ => .pure fun _ => id

theorem initEnd_lawful (r : Req) (st : Status) (p : PState) :
    Act.AlwaysLawful (do
      envTurn
      Act.update fun s => (s.setPState p).setUnit .idle
      retNow r st) :=
  envTurn_calm.always.bind fun _ => .update_bind (fun _ => rfl) (fun _ => id) <| (retNow_calm r st).always

theorem initFail_lawful (r : Req) (k : InitStep) (e : Status) : Act.AlwaysLawful (initFail r k e) :=
  .ite ((ctlSet_calm (by decide) _).always.bind fun _ => initEnd_lawful r e _) (initEnd_lawful r e _)

theorem initSequence_lawful (r : Req) : ∀ ks, Act.AlwaysLawful (initSequence r ks)
  | [] => initEnd_lawful r _ _
  | k :: ks => by
    refine .update_bind (fun _ => rfl) (fun _ => id) <| (initStep_lawful k).bind fun e => ?_
    cases e with
    | none => exact initSequence_lawful r ks
    | some e => exact initFail_lawful r k e

theorem initCommand_lawful (r : Req) : Act.AlwaysLawful (initCommand r) :=
  (issue_calm r _).always.bind fun _ => .read_bind fun _ _ => .ite
    (.read_bind fun _ _ => .ite
      (.update_bind (fun _ => rfl) (fun _ => id) <| initSequence_lawful r _) (.stop _))
    (retTurnedAway_calm r).always

/-! ## One step -/

/-- A host command emits only lawful events. -/
theorem exec_toInstr_extends (h : HostOp) (r : Req) (ht : exec (h.toInstr r) s = .next t) : s.Extends t := by
  have close {x : Act Unit} (ho : x.outcome s = .next t) (hx : Act.AlwaysLawful x) : s.Extends t := hx.next trivial ho
  cases h with
  | init => exact close ht (initCommand_lawful r)
  | refresh => exact close ht ((requestRefresh_calm r).always.bind fun _ => serve_lawful)
  | blank => exact close ht blanking_calm.always
  | unblank => exact close ht blanking_calm.always
  | detach =>
    exact close ht ((requestDetach_calm r).always.bind fun _ => .ite serve_lawful (retTurnedAway_calm r).always)

theorem idleTurn_extends (ht : idleTurn s = .next t) : s.Extends t := by
  unfold idleTurn at ht
  split at ht
  · exact (answerNow_calm 0).always.next trivial ht
  · exact serve_lawful.next trivial ht

/-- An input taken from the port is no event. -/
theorem State.Extends.of_port {p : List (Option Input)} (h : ({ s with port := p } : State).Extends t) :
    s.Extends t := h

theorem idleStep_extends (ht : idleStep s = .next t) : s.Extends t := by
  unfold idleStep at ht
  split at ht
  · split at ht
    next hd =>
      obtain ⟨h, -, rfl⟩ := decode_port_eq_ok hd
      exact (exec_toInstr_extends h _ ht).of_port
    next =>
      exact (Act.Lawful.next ((issue_calm _ _).always.bind fun _ => (retTurnedAway_calm _).always) trivial ht).of_port
  · exact ((applyInput_calm _).always.next trivial ht).of_port
  · exact (idleTurn_extends ht).of_port
  · exact idleTurn_extends ht

theorem stuckInput_lawful (i : Input) : Act.AlwaysLawful (stuckInput i) := by
  cases i with
  | cmd r op =>
    refine (issue_calm r op).always.bind fun _ => ?_
    split
    · exact .update (fun _ => rfl) fun _ => id
    · exact .update (fun _ => rfl) fun _ => id
    · exact .pure fun _ => id
  | wr a b => exact (produceByte_calm a b).always
  | policy p => exact .update (fun _ => rfl) fun _ => id
  | reset v => exact .update (fun _ => rfl) fun _ => id
  | answer k => exact .pure fun _ => id
  | putOff => exact .pure fun _ => id

theorem stuckStep_extends (ht : stuckStep s = .next t) : s.Extends t := by
  unfold stuckStep at ht
  split at ht
  · exact ((stuckInput_lawful _).next trivial ht).of_port
  · cases ht; exact .silent rfl
  · cases ht; exact .silent rfl

/-- Settles O55: a block with the invariant is stuck in a call, and then only takes an input, or is between operations
with no words handed over, and then runs at most one host command from its start. -/
theorem stepEmitsOnlyLawfulEvents : Obligations.StepEmitsOnlyLawfulEvents := by
  intro s t hs ht
  unfold step at ht
  split at ht
  · exact stuckStep_extends ht
  · have hm : s.In .idle := hs.mid (by simpa using ‹¬ s.inFlight.isSome›)
    rw [hs.ordered] at ht
    dsimp only at ht
    rw [if_pos hm.unit] at ht
    exact idleStep_extends ht

end Sys2Proof.Machine
end


section
/-! SUPPORT. The pixel row encoder: which channel bit stands at each serial position of a packed row
(40_pixel_encoder.md R102, R103), what `unpack_row` reads back (R108), and ENCODE_ROW as an operation (R105). -/

namespace Sys2Proof.Machine

/-! ## What packing puts at each serial position -/

/-- The bit a row of pixels has at serial position `p`: channel `p mod 3` of pixel `p div 3`, zero past the last pixel
(40_pixel_encoder.md R102, R103). -/
def rowBit (ws : List Word) (p : Nat) : Bool := chan (ws.getD (p / 3) 0#32) (p % 3)

@[simp] theorem chan_zero (k : Nat) : chan 0#32 k = false := by
  unfold chan; split <;> simp

theorem rowBit_channel (ws : List Word) (i : Nat) {k : Nat} (hk : k < 3) :
    rowBit ws (3 * i + k) = chan (ws.getD i 0#32) k := by
  rw [rowBit, Nat.mul_add_div (by decide), Nat.mul_add_mod, Nat.div_eq_of_lt hk, Nat.mod_eq_of_lt hk, Nat.add_zero]

theorem rowBit_outside {ws : List Word} {p : Nat} (hp : 3 * ws.length ≤ p) : rowBit ws p = false := by
  rw [rowBit, List.getD_eq_default _ _ (by omega), chan_zero]

@[simp] theorem placeChannel_length (i : Nat) (w : Word) (out : List Byte) (k : Nat) :
    (placeChannel i w out k).length = out.length := by
  unfold placeChannel; split <;> simp

theorem serialBit_placeChannel {i k : Nat} {out : List Byte} (h : 3 * i + k < 8 * out.length) (w : Word) (p : Nat) :
    serialBit (placeChannel i w out k) p = (decide (3 * i + k = p) && chan w k || serialBit out p) := by
  unfold placeChannel
  cases hc : chan w k with
  | true => rw [if_pos rfl, serialBit_setSerialBit (by omega), Bool.and_true]
  | false => rw [if_neg Bool.false_ne_true, Bool.and_false, Bool.false_or]

theorem serialBit_zeros (n p : Nat) : serialBit (List.replicate n 0#8) p = false := by
  rw [serialBit, List.getD_eq_getElem?_getD, List.getElem?_getD_replicate_default_eq, BitVec.getLsbD_zero]

/-- The three channels of pixel `i` go to the three positions of that pixel; what the string held before stays. -/
theorem serialBit_placePixel {i : Nat} {out : List Byte} (h : 3 * (i + 1) ≤ 8 * out.length) (w : Word) (p : Nat) :
    serialBit ([0, 1, 2].foldl (placeChannel i w) out) p =
      (decide (p / 3 = i) && chan w (p % 3) || serialBit out p) := by
  simp only [List.foldl_cons, List.foldl_nil]
  rw [serialBit_placeChannel (by simp; omega), serialBit_placeChannel (by simp; omega),
    serialBit_placeChannel (by omega)]
  by_cases hi : p / 3 = i
  · obtain ⟨k, hk, rfl⟩ : ∃ k < 3, p = 3 * i + k := ⟨p % 3, Nat.mod_lt _ (by decide), by omega⟩
    interval_cases k <;> simp [Nat.mul_add_div]
  · simp [hi, show 3 * i ≠ p by omega, show 3 * i + 1 ≠ p by omega, show 3 * i + 2 ≠ p by omega]

/-- Placing the pixels from `i` on leaves the positions of the pixels before `i` as they were. -/
theorem serialBit_placePixels : ∀ (ws : List Word) (i : Nat) (out : List Byte),
    3 * (i + ws.length) ≤ 8 * out.length → ∀ p, serialBit (placePixels i ws out) p =
      (decide (i ≤ p / 3) && chan (ws.getD (p / 3 - i) 0#32) (p % 3) || serialBit out p)
  | [], i, out, _, p => by simp [placePixels]
  | w :: ws, i, out, h, p => by
    rw [List.length_cons] at h
    rw [placePixels, serialBit_placePixels ws (i + 1) _ (by simp; omega), serialBit_placePixel (by omega)]
    obtain hlt | rfl | hgt := Nat.lt_trichotomy (p / 3) i
    · simp [hlt.ne, Nat.not_le.2 hlt, show ¬ i + 1 ≤ p / 3 by omega]
    · simp
    · simp [hgt.ne', hgt.le, Nat.succ_le_of_lt hgt, show p / 3 - i = p / 3 - (i + 1) + 1 by omega]

/-- Every bit of a packed row. -/
theorem serialBit_packRow (px : List Word) (p : Nat) : serialBit (packRow px) p = rowBit px p := by
  rw [packRow, serialBit_placePixels _ _ _ (by simp [packedLength, Config.trailerBytes]; omega), serialBit_zeros]
  simp [rowBit]

/-- Settles O9. -/
theorem packRowPlacesEachChannelBit : Obligations.PackRowPlacesEachChannelBit := fun px =>
  ⟨packRow_length px, fun i _ _ hk => by rw [serialBit_packRow, rowBit_channel px i hk],
    fun p hp => by rw [serialBit_packRow, rowBit_outside hp]⟩

/-! ## The round trip -/

theorem getLsbD_byte_eq_serialBit (b : List Byte) (n : Nat) {j : Nat} (hj : j < 8) :
    (b.getD n 0#8).getLsbD j = serialBit b (8 * n + (7 - j)) := by
  rw [serialBit, show (8 * n + (7 - j)) / 8 = n by omega, show 7 - (8 * n + (7 - j)) % 8 = j by omega]

/-- A byte string is its length and its serial bits. -/
theorem eq_of_serialBit_eq {a b : List Byte} (hl : a.length = b.length) (h : ∀ p, serialBit a p = serialBit b p) :
    a = b := by
  refine List.ext_getElem hl fun n ha hb => BitVec.eq_of_getLsbD_eq fun j hj => ?_
  rw [← List.getD_eq_getElem a 0#8 ha, ← List.getD_eq_getElem b 0#8 hb, getLsbD_byte_eq_serialBit a n hj,
    getLsbD_byte_eq_serialBit b n hj, h]

/-- The triple read for pixel `i` is its channels exactly when its three bits are those of the row. -/
theorem serialTriple_eq_channels_iff {px : List Word} {i : Nat} (hi : i < px.length) (b : List Byte) :
    (serialBit b (3 * i), serialBit b (3 * i + 1), serialBit b (3 * i + 2)) = channels px[i] ↔
      ∀ k < 3, serialBit b (3 * i + k) = rowBit px (3 * i + k) := by
  have hk : ∀ k < 3, rowBit px (3 * i + k) = chan px[i] k := fun k hk => by
    rw [rowBit_channel px i hk, List.getD_eq_getElem _ _ hi]
  simp only [channels, Prod.mk.injEq]
  constructor
  · rintro ⟨h0, h1, h2⟩ k hk3
    rw [hk k hk3]
    interval_cases k <;> assumption
  · intro h
    exact ⟨(h 0 (by decide)).trans (hk 0 (by decide)), (h 1 (by decide)).trans (hk 1 (by decide)),
      (h 2 (by decide)).trans (hk 2 (by decide))⟩

/-- `unpack_row` reads the channel triples of a row from exactly the strings that have the row's bits below `3*Wp`. -/
theorem unpackRow_eq_map_channels_iff (px : List Word) (b : List Byte) :
    unpackRow px.length b = px.map channels ↔ ∀ p < 3 * px.length, serialBit b p = rowBit px p := by
  have hpixels : unpackRow px.length b = px.map channels ↔
      ∀ i < px.length, ∀ k < 3, serialBit b (3 * i + k) = rowBit px (3 * i + k) := by
    rw [List.ext_getElem_iff]
    simp +contextual only [unpackRow, List.length_map, List.length_range, List.getElem_map, List.getElem_range,
      serialTriple_eq_channels_iff, true_and, forall_true_left]
  rw [hpixels]
  constructor
  · intro h p hp
    rw [← Nat.div_add_mod p 3]
    exact h _ (by omega) _ (Nat.mod_lt _ (by decide))
  · exact fun h i hi k hk => h _ (by omega)

/-- Settles O10: a packed row has the row's bits, and a string with the row's length and bits is the packed row. -/
theorem unpackRowInvertsPackRow : Obligations.UnpackRowInvertsPackRow := by
  constructor
  · exact fun px => (unpackRow_eq_map_channels_iff px _).2 fun p _ => serialBit_packRow px p
  · intro px b hl hz hb
    refine eq_of_serialBit_eq ((packRow_length px).trans hl.symm) fun p => ?_
    rw [serialBit_packRow]
    obtain hp | hp := Nat.lt_or_ge p (3 * px.length)
    · exact ((unpackRow_eq_map_channels_iff px b).1 hb.symm p hp).symm
    · rw [rowBit_outside hp, hz p hp]

/-! ## ENCODE_ROW -/

/-- Settles O11: the sequencer's state after the reads is the one with its pixel index at 399. -/
theorem encodeRowPacksTheRow : Obligations.EncodeRowPacksTheRow := fun _ _ hy hq hr =>
  Act.outcome_ok (encodeRow_quiet hy hq hr)

/-- An action that faults gives that fault. -/
theorem Act.outcome_fault {x : Act Unit} {s t : State} {f : Fault} (h : x s = .error (.fault f) t) :
    x.outcome s = .fault f := by
  rw [Act.outcome, h]

/-- The first read of a row that is not one of the 240 lies outside the frame buffer (20_memory.md R55). -/
theorem readPixels_outside {y : Nat} {s : State} (hy : 240 ≤ y) (hq : s.Quiet) (x : Fin 400) (xs : List (Fin 400)) :
    readPixels y (x :: xs) s = .error (.fault (.noSuchAddress (pixelAddr y x))) (s.setPxi x) := by
  have ha : ¬ pixelAddr y x + 3 < 384000 := by rw [pixelAddr_eq]; omega
  rw [readPixels, Act.update_bind_apply]
  exact Act.bind_error ((rd_quiet (s := s.setPxi x) hq).trans (rdNow_outside ha))

/-- ENCODE_ROW of such a row stops at its first read. -/
theorem encodeRow_outside {y : Nat} {s : State} (hy : 240 ≤ y) (hq : s.Quiet) :
    encodeRow y s = .error (.fault (.noSuchAddress (1600 * y))) (({ s with px := [] } : State).setPxi 0) := by
  rw [encodeRow, encodeFrom, Act.update_bind_apply, List.drop_zero, List.finRange_succ]
  exact Act.bind_error ((readPixels_outside (s := { s with px := [] }) hy hq 0 _).trans (by simp [pixelAddr_eq]))

/-- Settles O12. -/
theorem encodeRowOutsideThePanelFaults : Obligations.EncodeRowOutsideThePanelFaults := fun _ _ hy hq =>
  Act.outcome_fault (encodeRow_outside hy hq)

end Sys2Proof.Machine
end

section
/-! SUPPORT. The line framer: SEND_LINE call by call with nothing arriving and any answers (41_line_framer.md R121 to R130),
and the serial bits of a line frame (R131). -/

namespace Sys2Proof.Machine

variable {s t : State} {line : BitVec 16}

/-! ## Calls with any answer -/

/-- A control-line call that returned, whatever it answered (10_state.md R21). -/
def State.answeredSet (s : State) (l : Line) (v : Bool) : State :=
  { s with
    ctl := s.ctl.answered l v (s.ctlAnswers.get 0)
    ctlAnswers := s.ctlAnswers.drop 1
    trace := s.trace ++ [setEvent l v (s.ctlAnswers.get 0)] }

/-- A transport call that returned, whatever it answered (41_line_framer.md R132). -/
def State.answeredTx (s : State) (bytes : List Byte) : State :=
  { s with
    txAnswers := s.txAnswers.drop 1
    trace := s.trace ++ txEvents bytes (s.txAnswers.get 0) }

theorem ctlSet_answered {l : Line} {v : Bool} (hq : s.Quiet) (h : s.ctlAnswers.get 0 ≠ .never) :
    ctlSet l v s = .ok (decide (s.ctlAnswers.get 0 = .ok)) (s.answeredSet l v) :=
  ctlSet_answers hq h

theorem tx_answered {bytes : List Byte} (hq : s.Quiet) (h : s.txAnswers.get 0 ≠ .never) :
    tx bytes s = .ok (decide (s.txAnswers.get 0 = .ok)) (s.answeredTx bytes) := by
  unfold State.answeredTx
  cases hx : s.txAnswers.get 0 with
  | ok => exact tx_ok hq hx
  | fail n => exact tx_fail hq hx
  | never => exact absurd hx h

/-- A result with which the block stays inside a call that never returned (60_exceptions.md R198). -/
def Act.Stuck {α : Type} (r : EStateM.Result Stop State α) : Prop := ∃ u, r = .error .stuck u ∧ u.inFlight ≠ none

theorem Act.Stuck.bind {α β : Type} {x : Act α} (h : Act.Stuck (x s)) (f : α → Act β) : Act.Stuck ((x >>= f) s) := by
  obtain ⟨u, hx, hu⟩ := h
  exact ⟨u, Act.bind_error hx, hu⟩

theorem ctlSet_stuck {l : Line} {v : Bool} (hq : s.Quiet) (h : s.ctlAnswers.get 0 = .never) :
    Act.Stuck (ctlSet l v s) :=
  ⟨_, (ctlSet_quiet hq).trans (ctlSetNow_never h), nofun⟩

theorem tx_stuck {bytes : List Byte} (hq : s.Quiet) (h : s.txAnswers.get 0 = .never) : Act.Stuck (tx bytes s) :=
  ⟨_, (tx_quiet hq).trans (txNow_never h), nofun⟩

/-! ## The positions of a line -/

/-- The end of a line: chip-select deasserted, whatever the call answers (41_line_framer.md R126, R127). -/
def State.lineClosed (s : State) : State :=
  ((s.setStep .csDeassert).answeredSet .chipSelect false).setResult none

/-- The payload call alone decides how a line ends whose header was sent (41_line_framer.md R126). -/
theorem sendPayload_answered (hq : s.Quiet) (h : s.txAnswers.get 0 ≠ .never) :
    sendPayload s = closeLine true (decide (s.txAnswers.get 0 = .ok)) (s.answeredTx s.lb) := by
  rw [sendPayload, Act.read_bind_apply]
  exact Act.bind_ok (tx_answered hq h)

/-- A failed header call suppresses the payload call (41_line_framer.md R126). -/
theorem sendHeader_failed {n : Nat} (hq : s.Quiet) (h : s.txAnswers.get 0 = .fail n) :
    sendHeader s = closeLine false false (s.answeredTx s.hdr) := by
  rw [sendHeader, Act.read_bind_apply, Act.bind_ok (tx_answered hq (by rw [h]; nofun)), h]
  rfl

theorem sendHeader_sent (hq : s.Quiet) (h : s.txAnswers.get 0 = .ok) :
    sendHeader s = sendPayload ((s.didTx s.hdr).setStep .txPayload) :=
  sendHeader_of_envTurn (envTurn_quiet hq) h

/-- The answer of the assert is not examined (41_line_framer.md R127). -/
theorem assertLine_answered (hq : s.Quiet) (h : s.ctlAnswers.get 0 ≠ .never) :
    assertLine s = sendHeader ((s.answeredSet .chipSelect true).setStep .txHeader) :=
  Act.bind_ok (ctlSet_answered hq h)

theorem closeLine_answered {r1 r2 : Bool} (hq : s.Quiet) (h : s.ctlAnswers.get 0 ≠ .never) :
    closeLine r1 r2 s = .ok (lineStatus r1 r2) s.lineClosed := by
  rw [closeLine, Act.update_bind_apply, deassertLine]
  exact Act.bind_ok (ctlSet_answered (s := (s.setStep .csDeassert).setResult (some (lineStatus r1 r2))) hq h)

theorem assertLine_stuck (hq : s.Quiet) (h : s.ctlAnswers.get 0 = .never) : Act.Stuck (assertLine s) :=
  (ctlSet_stuck hq h).bind _

theorem sendHeader_stuck (hq : s.Quiet) (h : s.txAnswers.get 0 = .never) : Act.Stuck (sendHeader s) := by
  rw [sendHeader, Act.read_bind_apply]
  exact (tx_stuck hq h).bind _

theorem sendPayload_stuck (hq : s.Quiet) (h : s.txAnswers.get 0 = .never) : Act.Stuck (sendPayload s) := by
  rw [sendPayload, Act.read_bind_apply]
  exact (tx_stuck hq h).bind _

theorem closeLine_stuck {r1 r2 : Bool} (hq : s.Quiet) (h : s.ctlAnswers.get 0 = .never) :
    Act.Stuck (closeLine r1 r2 s) := by
  rw [closeLine, Act.update_bind_apply, deassertLine]
  exact (ctlSet_stuck (s := (s.setStep .csDeassert).setResult (some (lineStatus r1 r2))) hq h).bind _

/-! ## SEND_LINE -/

theorem sendLine_outOfRange (h : 240 ≤ line.toNat) : sendLine line s = .ok .invalidArgument s := by
  rw [sendLine, if_pos h]
  rfl

theorem sendLine_notGranted (hl : line.toNat < 240) (hg : s.grants.get 0 = false) :
    sendLine line s = .ok .resourceExhausted { s with grants := s.grants.drop 1 } := by
  rw [sendLine, if_neg (Nat.not_le.2 hl), Act.bind_ok (grantNow_apply s), hg]
  rfl

/-- Settles O20: the range check comes before everything else. -/
theorem sendLineRejectsLinesOutOfRange : Obligations.SendLineRejectsLinesOutOfRange := fun _ _ h =>
  exec_sendLine_ok (sendLine_outOfRange h)

/-- Settles O21: the buffer check comes before the header is laid out. -/
theorem sendLineWithoutBufferSendsNothing : Obligations.SendLineWithoutBufferSendsNothing := fun _ _ hl hg =>
  exec_sendLine_ok (sendLine_notGranted hl hg)

/-- The state in which the header call of a line is made: buffer granted, header laid out, the assert answered. -/
def State.asserted (s : State) (line : BitVec 16) : State :=
  ((s.buffered line).answeredSet .chipSelect true).setStep .txHeader

/-- The state in which the payload call of a line is made. -/
def State.headerDone (s : State) (line : BitVec 16) : State :=
  ((s.asserted line).didTx (headerBytes line)).setStep .txPayload

theorem get_ctlAnswers_asserted : (s.asserted line).ctlAnswers.get 0 = s.ctlAnswers.get 1 := Script.get_drop _ 1 0

theorem get_txAnswers_headerDone : (s.headerDone line).txAnswers.get 0 = s.txAnswers.get 1 := Script.get_drop _ 1 0

section Granted

variable (hq : s.Quiet) (hl : line.toNat < 240) (hg : s.grants.get 0 = true)
include hq hl hg

theorem sendLine_asserted (hc : s.ctlAnswers.get 0 ≠ .never) : sendLine line s = sendHeader (s.asserted line) :=
  (sendLine_granted hl hg).trans (assertLine_answered (s := s.buffered line) hq hc)

theorem sendLine_headerFailed {n : Nat} (hc : s.ctlAnswers.get 0 ≠ .never) (hx : s.txAnswers.get 0 = .fail n) :
    sendLine line s = closeLine false false ((s.asserted line).answeredTx (headerBytes line)) :=
  (sendLine_asserted hq hl hg hc).trans (sendHeader_failed (s := s.asserted line) hq hx)

theorem sendLine_headerSent (hc : s.ctlAnswers.get 0 ≠ .never) (hx : s.txAnswers.get 0 = .ok) :
    sendLine line s = sendPayload (s.headerDone line) :=
  (sendLine_asserted hq hl hg hc).trans (sendHeader_sent (s := s.asserted line) hq hx)

theorem sendLine_payloadAnswered (hc : s.ctlAnswers.get 0 ≠ .never) (hx : s.txAnswers.get 0 = .ok)
    (hx' : s.txAnswers.get 1 ≠ .never) :
    sendLine line s = closeLine true (decide (s.txAnswers.get 1 = .ok)) ((s.headerDone line).answeredTx s.lb) := by
  rw [← get_txAnswers_headerDone] at hx' ⊢
  exact (sendLine_headerSent hq hl hg hc hx).trans (sendPayload_answered hq hx')

/-- A line whose header was sent, whatever its payload call answered (41_line_framer.md R129). -/
theorem exec_sendLine_payloadAnswered (hc : s.ctlAnswers.get 0 ≠ .never) (hc' : s.ctlAnswers.get 1 ≠ .never)
    (hx : s.txAnswers.get 0 = .ok) (hx' : s.txAnswers.get 1 ≠ .never) :
    exec (.sendLine line) s = .next
      { s with
        hdr := headerBytes line
        ctl := (s.ctl.answered .chipSelect true (s.ctlAnswers.get 0)).answered .chipSelect false (s.ctlAnswers.get 1)
        seq := ⟨s.seq.unit, .csDeassert, s.seq.ln, s.seq.pxi⟩
        result := some (lineStatus true (decide (s.txAnswers.get 1 = .ok)))
        grants := s.grants.drop 1
        ctlAnswers := s.ctlAnswers.drop 2
        txAnswers := s.txAnswers.drop 2
        trace := s.trace ++
          ([setEvent .chipSelect true (s.ctlAnswers.get 0), .tx (headerBytes line) .ok] ++
            txEvents s.lb (s.txAnswers.get 1) ++ [setEvent .chipSelect false (s.ctlAnswers.get 1)]) } := by
  rw [← get_ctlAnswers_asserted (line := line)] at hc'
  rw [exec_sendLine_ok ((sendLine_payloadAnswered hq hl hg hc hx hx').trans (closeLine_answered hq hc'))]
  simp [State.lineClosed, State.headerDone, State.asserted, State.buffered, State.answeredSet, State.answeredTx,
    State.didTx, State.setStep, State.setResult]

/-- A line whose header call failed (41_line_framer.md R126). -/
theorem exec_sendLine_headerFailed {n : Nat} (hc : s.ctlAnswers.get 0 ≠ .never) (hc' : s.ctlAnswers.get 1 ≠ .never)
    (hx : s.txAnswers.get 0 = .fail n) :
    exec (.sendLine line) s = .next
      { s with
        hdr := headerBytes line
        ctl := (s.ctl.answered .chipSelect true (s.ctlAnswers.get 0)).answered .chipSelect false (s.ctlAnswers.get 1)
        seq := ⟨s.seq.unit, .csDeassert, s.seq.ln, s.seq.pxi⟩
        result := some .transportFailure
        grants := s.grants.drop 1
        ctlAnswers := s.ctlAnswers.drop 2
        txAnswers := s.txAnswers.drop 1
        trace := s.trace ++
          [setEvent .chipSelect true (s.ctlAnswers.get 0), .tx (headerBytes line) (.fail (min n 7)),
            setEvent .chipSelect false (s.ctlAnswers.get 1)] } := by
  rw [← get_ctlAnswers_asserted (line := line)] at hc'
  rw [exec_sendLine_ok ((sendLine_headerFailed hq hl hg hc hx).trans (closeLine_answered hq hc'))]
  simp [State.lineClosed, State.asserted, State.buffered, State.answeredSet, State.answeredTx, State.setStep,
    State.setResult, lineStatus, txEvents, hx, headerBytes]

/-- A line that does not get stuck is one whose calls all returned (60_exceptions.md R198). -/
theorem sendLine_answers_of_not_stuck (hs : ¬ Act.Stuck (sendLine line s)) :
    s.ctlAnswers.get 0 ≠ .never ∧ s.ctlAnswers.get 1 ≠ .never ∧
      ((∃ n, s.txAnswers.get 0 = .fail n) ∨ s.txAnswers.get 0 = .ok ∧ s.txAnswers.get 1 ≠ .never) := by
  have hc : s.ctlAnswers.get 0 ≠ .never := fun h =>
    hs (sendLine_granted hl hg ▸ assertLine_stuck (s := s.buffered line) hq h)
  rw [← get_ctlAnswers_asserted (line := line)]
  refine ⟨hc, ?_⟩
  cases hx : s.txAnswers.get 0 with
  | never => exact absurd (sendHeader_stuck (s := s.asserted line) hq hx) (sendLine_asserted hq hl hg hc ▸ hs)
  | fail n =>
    rw [sendLine_headerFailed hq hl hg hc hx] at hs
    exact ⟨fun h => hs (closeLine_stuck hq h), .inl ⟨n, rfl⟩⟩
  | ok =>
    have hx' : s.txAnswers.get 1 ≠ .never := fun h =>
      hs (sendLine_headerSent hq hl hg hc hx ▸ sendPayload_stuck hq (get_txAnswers_headerDone.trans h))
    rw [sendLine_payloadAnswered hq hl hg hc hx hx'] at hs
    exact ⟨fun h => hs (closeLine_stuck hq h), .inr ⟨rfl, hx'⟩⟩

end Granted

/-- Settles O22: the payload call answered `ok`. -/
theorem sendLineFramesOneLine : Obligations.SendLineFramesOneLine := by
  intro s line hq hl hg hx hx' hc hc'
  rw [exec_sendLine_payloadAnswered hq hl hg hc hc' hx (by rw [hx']; nofun), hx']
  rfl

/-- Settles O23: the header call's failure, then the payload call's. -/
theorem sendLineDeassertsAfterTransportFailure : Obligations.SendLineDeassertsAfterTransportFailure := by
  intro s line n hq hl hg hc hc'
  refine ⟨exec_sendLine_headerFailed hq hl hg hc hc', fun hx hx' => ?_⟩
  rw [exec_sendLine_payloadAnswered hq hl hg hc hc' hx (by rw [hx']; nofun), hx']
  rfl

/-- What a line that returned `st` has emitted (41_line_framer.md R130). -/
def EmittedFor (st : Status) (es : List Event) : Prop :=
  st ≠ .controlLineFailure ∧
  (st = .ok → ∃ a b h p,
    es = [.set .chipSelect true a, .tx h .ok, .tx p .ok, .set .chipSelect false b] ∧ (h ++ p).length = 159) ∧
  (st = .invalidArgument ∨ st = .resourceExhausted → es = []) ∧
  (st = .transportFailure → ∃ a b h p n,
    es = [.set .chipSelect true a, .tx h (.fail n), .set .chipSelect false b] ∨
    es = [.set .chipSelect true a, .tx h .ok, .tx p (.fail n), .set .chipSelect false b])

/-- A SEND_LINE that gets stuck leaves the block inside the call. -/
theorem exec_sendLine_stuck (h : Act.Stuck (sendLine line s)) (ht : exec (.sendLine line) s = .next t) :
    t.inFlight ≠ none := by
  obtain ⟨u, hu, hc⟩ := h.bind fun st => Act.update fun s => s.setResult (some st)
  have hf := Act.outcome_next (x := sendLine line >>= fun st => Act.update fun s => s.setResult (some st)) ht
  rw [Act.final, hu] at hf
  exact hf ▸ hc

/-- Settles O24: out of range, not granted, header failed, payload failed or sent. -/
theorem sendLineByteCountLaw : Obligations.SendLineByteCountLaw := by
  intro s t line hq hlb _ ht hin
  suffices h : ∃ st es u, exec (.sendLine line) s = .next u ∧ u.result = some st ∧ u.trace = s.trace ++ es ∧
      u.status = s.status ∧ EmittedFor st es by
    obtain ⟨st, es, u, hu, hr⟩ := h
    rw [ht] at hu
    cases hu
    exact ⟨st, es, hr⟩
  obtain hl | hl := Nat.lt_or_ge line.toNat 240
  case inr => exact ⟨_, [], _, exec_sendLine_ok (sendLine_outOfRange hl), rfl, by simp, rfl, by simp [EmittedFor]⟩
  cases hg : s.grants.get 0 with
  | false => exact ⟨_, [], _, exec_sendLine_ok (sendLine_notGranted hl hg), rfl, by simp, rfl, by simp [EmittedFor]⟩
  | true =>
    obtain ⟨hc, hc', ⟨n, hx⟩ | ⟨hx, hx'⟩⟩ := sendLine_answers_of_not_stuck hq hl hg fun h => exec_sendLine_stuck h ht hin
    · exact ⟨_, _, _, exec_sendLine_headerFailed hq hl hg hc hc' hx, rfl, rfl, rfl, by simp [EmittedFor, setEvent]⟩
    · refine ⟨_, _, _, exec_sendLine_payloadAnswered hq hl hg hc hc' hx hx', rfl, rfl, rfl, ?_⟩
      cases hp : s.txAnswers.get 1 with
      | ok => simp [EmittedFor, setEvent, lineStatus, txEvents, hlb, headerBytes]
      | fail n => simp [EmittedFor, setEvent, lineStatus, txEvents]
      | never => exact absurd hp hx'

/-! ## The bits of a line frame -/

theorem serialBit_append_left {a : List Byte} {p : Nat} (hp : p < 8 * a.length) (b : List Byte) :
    serialBit (a ++ b) p = serialBit a p := by
  rw [serialBit, List.getD_append _ _ _ _ (by omega), serialBit]

theorem serialBit_append_right (a b : List Byte) (p : Nat) :
    serialBit (a ++ b) (8 * a.length + p) = serialBit b p := by
  rw [serialBit, List.getD_append_right _ _ _ _ (by omega), serialBit]
  congr 2 <;> omega

theorem getLsbD_addrHi (line : BitVec 16) {j : Nat} (hj : j < 8) :
    (addrHi line).getLsbD j = (decide (j < 2) && line.getLsbD (8 + j)) := by
  have hmask : ∀ j < 8, (3#16).getLsbD j = decide (j < 2) := by decide
  simp only [addrHi, BitVec.getLsbD_setWidth, BitVec.getLsbD_and, BitVec.getLsbD_ushiftRight, hmask j hj, hj, decide_true,
    Bool.true_and, Bool.and_comm]

theorem getLsbD_addrLo (line : BitVec 16) {j : Nat} (hj : j < 8) : (addrLo line).getLsbD j = line.getLsbD j := by
  have hmask : ∀ j < 8, (255#16).getLsbD j = true := by decide
  simp only [addrLo, BitVec.getLsbD_setWidth, BitVec.getLsbD_and, hmask j hj, hj, decide_true, Bool.true_and, Bool.and_true]

theorem getLsbD_modeDataUpdate {j : Nat} (hj : j < 8) : Config.modeDataUpdate.getLsbD j = decide (j = 0) := by
  have h : ∀ j < 8, (1#8).getLsbD j = decide (j = 0) := by decide
  exact h j hj

/-- The bits of a header: the mode bit at position 7, the ten address bits from 46 on (30_encoding.md R82 to R84). -/
theorem serialBit_headerBytes (line : BitVec 16) {p : Nat} (hp : p < 56) :
    serialBit (headerBytes line) p = (decide (p = 7) || decide (46 ≤ p) && line.getLsbD (55 - p)) := by
  obtain ⟨n, m, hn, hm, rfl⟩ : ∃ n m, n < 7 ∧ m < 8 ∧ p = 8 * n + m := ⟨p / 8, p % 8, by omega, by omega, by omega⟩
  have hj : 7 - m < 8 := by omega
  rw [serialBit, Nat.mul_add_div (by decide), Nat.mul_add_mod, Nat.div_eq_of_lt hm, Nat.mod_eq_of_lt hm]
  obtain rfl | ⟨h1, h4⟩ | rfl | rfl : n = 0 ∨ (1 ≤ n ∧ n ≤ 4) ∨ n = 5 ∨ n = 6 := by omega
  · exact (getLsbD_modeDataUpdate hj).trans (by grind)
  · have hbyte : (headerBytes line).getD n 0#8 = 0#8 := by interval_cases n <;> rfl
    rw [Nat.add_zero, hbyte, BitVec.getLsbD_zero]
    grind
  · exact (getLsbD_addrHi line hj).trans (by grind)
  · exact (getLsbD_addrLo line hj).trans (by grind)

/-- Settles O25: the header's bits up to position 55, the row's from 56 on. -/
theorem lineFrameBitByBit : Obligations.LineFrameBitByBit := by
  intro line px hpx
  have hheader {p : Nat} (hp : p < 56) := (serialBit_append_left (a := headerBytes line) hp (packRow px)).trans
    (serialBit_headerBytes line hp)
  have hpayload {p : Nat} (hp : 56 ≤ p) : serialBit (headerBytes line ++ packRow px) p = rowBit px (p - 56) := by
    obtain ⟨q, rfl⟩ := Nat.exists_eq_add_of_le hp
    rw [Nat.add_sub_cancel_left, ← serialBit_packRow]
    exact serialBit_append_right (headerBytes line) (packRow px) q
  refine ⟨?_, fun p hp => ?_, ?_, fun p h8 hp => ?_, fun j hj => ?_, fun i k hi hk => ?_, fun p hp _ => ?_⟩
  · simp [serialBits, packRow_length, packedLength, headerBytes, hpx]
  · rw [hheader (by omega)]
    simp [show p ≠ 7 by omega, show ¬ 46 ≤ p by omega]
  · rw [hheader (by decide)]
    rfl
  · rw [hheader (by omega)]
    simp [show p ≠ 7 by omega, show ¬ 46 ≤ p by omega]
  · rw [hheader (by omega), show 55 - (46 + j) = 9 - j by omega]
    simp [show 46 + j ≠ 7 by omega]
  · rw [hpayload (by omega), ← rowBit_channel px i hk]
    congr 1
    omega
  · rw [hpayload (by omega), rowBit_outside (by omega)]

end Sys2Proof.Machine
end

section
/-! SUPPORT. BLANK and UNBLANK (42_display_controller.md R146 to R149), at an idle block and inside a line. -/

namespace Sys2Proof.Machine

variable {s : State} {r : Req} {op : BitVec 3} {v : Bool} {p : PState}

/-- The one shape of BLANK and UNBLANK: the level the line is given and the power state that follows (R146, R147). -/
def blanking (r : Req) (op : BitVec 3) (v : Bool) (p : PState) : Act Unit := do
  issue r op
  let q ← Act.read State.pstate
  if q.isUp then
    let _ ← ctlSetNow .displayEnable v
    Act.update fun s => s.setPState p
    retNow r .ok
  else
    retNow r .invalidArgument

theorem blankNow_eq (r : Req) : blankNow r = blanking r 0b011#3 false .blanked := rfl

theorem unblankNow_eq (r : Req) : unblankNow r = blanking r 0b100#3 true .active := rfl

theorem PState.isUp_iff : p.isUp = true ↔ p = .active ∨ p = .blanked := by cases p <;> decide

theorem PState.NoPanel.isUp_eq_false (h : p.NoPanel) : p.isUp = false := by rcases h with rfl | rfl <;> rfl

/-- With the display up, such a command has its call, its power state and `OK`, whatever the call answers (R149). -/
theorem blanking_up (hp : s.pstate = .active ∨ s.pstate = .blanked) (hu : s.seq.unit ≠ .init)
    (hc : s.ctlAnswers.get 0 ≠ .never) :
    blanking r op v p s = .ok ()
      { s with
        pstate := p
        status := .ok
        ctl := s.ctl.answered .displayEnable v (s.ctlAnswers.get 0)
        ctlAnswers := s.ctlAnswers.drop 1
        trace := s.trace ++ [.cmd r op, setEvent .displayEnable v (s.ctlAnswers.get 0), .ret r .ok] } := by
  have hi : s.pstate ≠ .initializing := by rcases hp with hp | hp <;> rw [hp] <;> decide
  have hup : (s.emit (.cmd r op)).pstate.isUp = true := PState.isUp_iff.2 hp
  rw [blanking, Act.bind_ok (issue_accepted hu hi), Act.read_bind_apply, if_pos hup,
    Act.bind_ok (ctlSetNow_answers (s := s.emit (.cmd r op)) hc)]
  simp [retNow, State.emit, State.setPState, State.setStatus]

/-- Without a panel it is turned away at once (R148). -/
theorem blanking_noPanel (hp : s.pstate.NoPanel) (hu : s.seq.unit ≠ .init) :
    blanking r op v p s = .ok ()
      { s with status := .invalidArgument, trace := s.trace ++ [.cmd r op, .ret r .invalidArgument] } := by
  have hup : ¬ (s.emit (.cmd r op)).pstate.isUp = true := Bool.not_eq_true _ ▸ hp.isUp_eq_false
  rw [blanking, Act.bind_ok (issue_accepted hu hp.not_initializing), Act.read_bind_apply, if_neg hup]
  simp [retNow, State.emit, State.setStatus]

/-- Settles O35: the call of BLANK returns, with any answer. -/
theorem blankLowersDisplayEnable : Obligations.BlankLowersDisplayEnable := fun _ _ hp hu hc =>
  Act.outcome_ok (blanking_up hp hu hc)

/-- Settles O36: the call of UNBLANK returns, with any answer. -/
theorem unblankRaisesDisplayEnable : Obligations.UnblankRaisesDisplayEnable := fun _ _ hp hu hc =>
  Act.outcome_ok (blanking_up hp hu hc)

/-- Settles O37: both commands find no panel. -/
theorem blankingWithoutAPanelIsTurnedAway : Obligations.BlankingWithoutAPanelIsTurnedAway := fun _ _ hp hu =>
  ⟨Act.outcome_ok (blanking_noPanel hp hu), Act.outcome_ok (blanking_noPanel hp hu)⟩

/-- Settles O26: the line pauses at its assert, the BLANK falls in the turn before the header call, and the rest of the
line meets nothing. -/
theorem blankFallsInsideALine : Obligations.BlankFallsInsideALine := by
  intro s line r hd hl hp hu hg hx hc
  have hassert : envTurn (s.buffered line) = .ok () (s.buffered line).nextSlot :=
    envTurn_headD_nil (congrArg (List.headD · []) hd)
  have hblank : envTurn (((s.buffered line).nextSlot.didSet .chipSelect true).setStep .txHeader) = .ok () _ :=
    envTurn_single (congrArg List.tail hd) (blanking_up (r := r) (op := 0b011#3) (v := false) (p := .blanked)
      (.inl hp) hu (by simp [hc 1]))
  have hrun := sendLine_of_envTurns hl hg hassert (hc 0 (by decide)) hblank (hx 0 (by decide))
    (envTurn_quiet (by simp [hd])) (by simpa using hx 1 (by decide)) (by simp [State.Quiet, hd])
    (by simpa using hc 2 (by decide))
  rw [exec_sendLine_ok hrun]
  simp [State.buffered, State.nextSlot, State.deasserted, State.didSet, State.didTx, State.setStep, State.setResult,
    Ctl.answered, setEvent, Ctl.set, hd, hc 1]

end Sys2Proof.Machine
end

section
/-! SUPPORT. INIT step by step, with the answers of each call: its success and its failures
(42_display_controller.md R141 to R144). -/

namespace Sys2Proof.Machine

variable {s t u : State} {r : Req} {k : InitStep}

/-! ## Which call a step makes -/

/-- The control-line call of a step; the clear command and the waits have none (42_display_controller.md R142). -/
def InitStep.lineCall : InitStep → Option (Line × Bool)
  | .modeSelectLow => some (.comInversionModeSelect, false)
  | .displayLow => some (.displayEnable, false)
  | .displayHigh => some (.displayEnable, true)
  | .csAssert => some (.chipSelect, true)
  | .csDeassert => some (.chipSelect, false)
  | .settle => none
  | .allClear => none
  | .clearWait => none

/-- The step is a wait. -/
def InitStep.isWait : InitStep → Bool
  | .settle => true
  | .clearWait => true
  | _ => false

/-- How many control-line answers some steps use up. -/
def lineCalls (ks : List InitStep) : Nat := ks.countP fun k => k.lineCall.isSome

/-- `CTL` after the control-line call of a step, answered `ok`. -/
def Ctl.afterStep (c : Ctl) (k : InitStep) : Ctl := k.lineCall.elim c fun call => c.set call.1 call.2

theorem initStep_of_lineCall {l : Line} {v : Bool} (h : k.lineCall = some (l, v)) :
    initStep k = (do
      let ok ← ctlSet l v
      pure (lineFailure ok)) := by
  cases k <;> cases h <;> rfl

/-! ## Steps that go well -/

/-- What holds of the first answer holds of every answer before the second. -/
theorem Script.forall_lt_one {α : Type} {c : Script α} {a : α} (h : c.get 0 = a) : ∀ n, n < 1 → c.get n = a :=
  fun _ hn => Nat.lt_one_iff.1 hn ▸ h

/-- The calls of these steps are all answered well. -/
structure State.InitGoesWell (s : State) (ks : List InitStep) : Prop where
  line : ∀ n, n < lineCalls ks → s.ctlAnswers.get n = .ok
  clear : ∀ n, n < ks.count .allClear → s.txAnswers.get n = .ok
  wait : ∀ n, n < ks.countP InitStep.isWait → s.waitAnswers.get n = true

/-- The state after these steps, all gone well: the sequencer at the last of them. -/
def State.initStepsDone (s : State) (ks : List InitStep) : State :=
  { s with
    ctl := ks.foldl Ctl.afterStep s.ctl
    seq := { s.seq with step := (ks.getLast?.map SeqStep.initStep).getD s.seq.step }
    ctlAnswers := s.ctlAnswers.drop (lineCalls ks)
    txAnswers := s.txAnswers.drop (ks.count .allClear)
    waitAnswers := s.waitAnswers.drop (ks.countP InitStep.isWait)
    trace := s.trace ++ ks.map InitStep.event }

theorem initStepDone_eq (s : State) (k : InitStep) :
    (s.setStep (.initStep k)).initStepDone k = s.initStepsDone [k] := by
  cases k <;> rfl

theorem initStepsDone_cons (s : State) (k : InitStep) (ks : List InitStep) :
    (s.initStepsDone [k]).initStepsDone ks = s.initStepsDone (k :: ks) := by
  cases ks <;>
    simp [State.initStepsDone, lineCalls, List.countP_cons, List.count_cons, List.getLast?_cons, Nat.add_comm]

@[simp] theorem initStepsDone_nil (s : State) : s.initStepsDone [] = s := by
  simp [State.initStepsDone, lineCalls]

/-- A step whose call is answered well. -/
theorem initStep_goesWell (hq : s.Quiet) (h : s.InitGoesWell [k]) : initStep k s = .ok none (s.initStepDone k) := by
  cases k with
  | settle => exact Act.bind_ok (wait_did hq (h.wait 0 (by decide)))
  | clearWait => exact Act.bind_ok (wait_did hq (h.wait 0 (by decide)))
  | allClear => exact Act.bind_ok (tx_did hq (h.clear 0 (by decide)))
  | _ => exact Act.bind_ok (ctlSet_ok hq (h.line 0 (by decide)))

theorem State.InitGoesWell.head {ks : List InitStep} (h : s.InitGoesWell (k :: ks)) : s.InitGoesWell [k] where
  line n hn := h.line n (by simp [lineCalls, List.countP_cons] at hn ⊢; omega)
  clear n hn := h.clear n (by simp [List.count_cons] at hn ⊢; omega)
  wait n hn := h.wait n (by simp [List.countP_cons] at hn ⊢; omega)

theorem State.InitGoesWell.tail {ks : List InitStep} (h : s.InitGoesWell (k :: ks)) :
    (s.initStepsDone [k]).InitGoesWell ks where
  line n hn := (Script.get_drop _ _ n).trans (h.line _ (by simp [lineCalls, List.countP_cons] at hn ⊢; omega))
  clear n hn := (Script.get_drop _ _ n).trans (h.clear _ (by simp [List.count_cons] at hn ⊢; omega))
  wait n hn := (Script.get_drop _ _ n).trans (h.wait _ (by simp [List.countP_cons] at hn ⊢; omega))

/-- Steps that go well lead to the steps after them. -/
theorem initSequence_append (r : Req) (after : List InitStep) : ∀ (ks : List InitStep) (s : State), s.Quiet →
    s.InitGoesWell ks → initSequence r (ks ++ after) s = initSequence r after (s.initStepsDone ks)
  | [], s, _, _ => by rw [initStepsDone_nil, List.nil_append]
  | k :: ks, s, hq, hw => by
    rw [← initStepsDone_cons, ← initSequence_append r after ks (s.initStepsDone [k]) hq hw.tail]
    have hk := initStep_goesWell (s := s.setStep (.initStep k)) hq { hw.head with }
    rw [initStepDone_eq] at hk
    exact Act.bind_ok hk

/-! ## From the command to the end -/

/-- INIT has been accepted and its sequence begins (42_display_controller.md R141). -/
def State.initBegun (s : State) (r : Req) : State :=
  { s.emit (.cmd r 0b001#3) with caller := r, pstate := .initializing }.setUnit .init

/-- INIT has left the power state at `p` and returned `st` (42_display_controller.md R143, R144). -/
def State.initEnded (s : State) (r : Req) (p : PState) (st : Status) : State :=
  ((s.setPState p).setUnit .idle).returned r st

theorem exec_init_accepted (hp : s.pstate = .uninitialized) (hu : s.seq.unit = .idle) :
    exec (.init r) s = (initSequence r InitStep.all).outcome (s.initBegun r) := by
  refine Act.outcome_congr ((Act.bind_ok (issue_accepted (by rw [hu]; decide) (by rw [hp]; decide))).trans ?_)
  rw [Act.read_bind_apply, State.emit_pstate, if_pos hp, Act.read_bind_apply, State.emit_seq, if_pos hu]
  rfl

/-- Settles O30: all eight steps go well. -/
theorem initBringsTheDisplayUp : Obligations.InitBringsTheDisplayUp := by
  intro s r hq hp hu hc hx hwait
  have hw : (s.initBegun r).InitGoesWell InitStep.all := ⟨hc, Script.forall_lt_one hx, hwait⟩
  have hrun := (initSequence_append r [] _ (s.initBegun r) hq hw).trans
    (initDone_quiet r (s := (s.initBegun r).initStepsDone _) hq)
  rw [exec_init_accepted hp hu]
  exact Act.outcome_ok hrun

/-! ## The first failing step -/

theorem initFail_quiet {e : Status} (hk : k.needsDeassert = false) (hq : s.Quiet) :
    initFail r k e s = .ok () (s.initEnded r .uninitialized e) := by
  rw [initFail, hk]
  exact envTurn_bind_quiet hq

/-- After a failure at step 5 or 6 one deassert is attempted, whatever it answers (42_display_controller.md R143). -/
theorem initFail_deasserts {e : Status} (hk : k.needsDeassert = true) (hq : s.Quiet)
    (hc : s.ctlAnswers.get 0 ≠ .never) :
    initFail r k e s = .ok () ((s.answeredSet .chipSelect false).initEnded r .uninitialized e) := by
  rw [initFail, hk]
  refine (Act.bind_ok (ctlSet_answered hq hc)).trans ?_
  exact envTurn_bind_quiet hq

/-- A call has failed with the event `ev`, `n` control-line answers and `m` transport answers used up; `CTL` is left
unchanged (10_state.md R21). -/
def State.callFailed (s : State) (n m : Nat) (ev : Event) : State :=
  { s with ctlAnswers := s.ctlAnswers.drop n, txAnswers := s.txAnswers.drop m, trace := s.trace ++ [ev] }

theorem initStep_lineFails {l : Line} {v : Bool} (hk : k.lineCall = some (l, v)) (hq : s.Quiet)
    (hc : s.ctlAnswers.get 0 = .fail) :
    initStep k s = .ok (some .controlLineFailure) (s.callFailed 1 0 (.set l v false)) := by
  rw [initStep_of_lineCall hk, Act.bind_ok (ctlSet_answers hq (by rw [hc]; nofun)), hc]
  rfl

theorem initStep_clearFails {j : Nat} (hq : s.Quiet) (hx : s.txAnswers.get 0 = .fail j) :
    initStep .allClear s = .ok (some .transportFailure) (s.callFailed 0 1 (.tx clearFrame (.fail (min j 1)))) :=
  Act.bind_ok (tx_fail hq hx)

/-- The state in which step `k` of INIT makes its call, the steps `ks` before it gone well. -/
def State.initReached (s : State) (r : Req) (ks : List InitStep) (k : InitStep) : State :=
  ((s.initBegun r).initStepsDone ks).setStep (.initStep k)

theorem get_ctlAnswers_initReached (s : State) (r : Req) (ks : List InitStep) (k : InitStep) (n : Nat) :
    (s.initReached r ks k).ctlAnswers.get n = s.ctlAnswers.get (lineCalls ks + n) := Script.get_drop _ _ n

theorem get_txAnswers_initReached (s : State) (r : Req) (ks : List InitStep) (k : InitStep) (n : Nat) :
    (s.initReached r ks k).txAnswers.get n = s.txAnswers.get (ks.count .allClear + n) := Script.get_drop _ _ n

section

variable {ks after : List InitStep} {e : Status} {n m : Nat} {ev : Event}

/-- What a failure with no deassert leaves (42_display_controller.md R143). -/
theorem initFailed_eq (s : State) :
    ((s.initReached r ks k).callFailed n m ev).initEnded r .uninitialized e =
      s.initFailed r k e (ks.foldl Ctl.afterStep s.ctl) (lineCalls ks + n) (ks.count .allClear + m)
        (ks.countP InitStep.isWait) (ks.map InitStep.event ++ [ev]) := by
  simp [State.initFailed, State.initReached, State.initBegun, State.initStepsDone, State.callFailed, State.initEnded,
    State.returned, State.emit, State.setUnit, State.setStep, State.setPState, State.setStatus]

/-- What a failure leaves after which the deassert answered (42_display_controller.md R143). -/
theorem initFailed_deasserted_eq (s : State) :
    (((s.initReached r ks k).callFailed n m ev).answeredSet .chipSelect false).initEnded r .uninitialized e =
      s.initFailed r k e
        ((ks.foldl Ctl.afterStep s.ctl).answered .chipSelect false (s.ctlAnswers.get (lineCalls ks + n)))
        (lineCalls ks + n + 1) (ks.count .allClear + m) (ks.countP InitStep.isWait)
        (ks.map InitStep.event ++ [ev, setEvent .chipSelect false (s.ctlAnswers.get (lineCalls ks + n))]) := by
  simp [State.initFailed, State.initReached, State.initBegun, State.initStepsDone, State.callFailed, State.answeredSet,
    State.initEnded, State.returned, State.emit, State.setUnit, State.setStep, State.setPState, State.setStatus]

variable (hp : s.pstate = .uninitialized) (hu : s.seq.unit = .idle) (hq : s.Quiet)
  (hall : InitStep.all = ks ++ k :: after) (hw : s.InitGoesWell ks)
include hp hu hq hall hw

/-- The first failing step ends the sequence (42_display_controller.md R143). -/
theorem exec_init_failed (hk : initStep k (s.initReached r ks k) = .ok (some e) t)
    (hend : initFail r k e t = .ok () u) : exec (.init r) s = .next u := by
  have hks := initSequence_append r (k :: after) ks (s.initBegun r) hq { hw with }
  rw [exec_init_accepted hp hu, hall]
  exact Act.outcome_ok (hks.trans ((Act.bind_ok hk).trans hend))

/-- The failing call is a control-line call after which no deassert is attempted. -/
theorem exec_init_lineFails {l : Line} {v : Bool} (hk : k.lineCall = some (l, v)) (hn : k.needsDeassert = false)
    (hc : s.ctlAnswers.get (lineCalls ks) = .fail) :
    exec (.init r) s = .next (s.initFailed r k .controlLineFailure (ks.foldl Ctl.afterStep s.ctl) (lineCalls ks + 1)
      (ks.count .allClear) (ks.countP InitStep.isWait) (ks.map InitStep.event ++ [.set l v false])) := by
  rw [exec_init_failed hp hu hq hall hw (initStep_lineFails hk hq ((get_ctlAnswers_initReached ..).trans hc))
    (initFail_quiet hn hq), initFailed_eq]
  rfl

/-- The failing call is one after which a deassert is attempted. -/
theorem exec_init_failsDeasserted (hn : k.needsDeassert = true)
    (hk : initStep k (s.initReached r ks k) = .ok (some e) ((s.initReached r ks k).callFailed n m ev))
    (hd : s.ctlAnswers.get (lineCalls ks + n) ≠ .never) :
    exec (.init r) s = .next (s.initFailed r k e
      ((ks.foldl Ctl.afterStep s.ctl).answered .chipSelect false (s.ctlAnswers.get (lineCalls ks + n)))
      (lineCalls ks + n + 1) (ks.count .allClear + m) (ks.countP InitStep.isWait)
      (ks.map InitStep.event ++ [ev, setEvent .chipSelect false (s.ctlAnswers.get (lineCalls ks + n))])) := by
  have hd' : ((s.initReached r ks k).callFailed n m ev).ctlAnswers.get 0 ≠ .never := by
    rwa [State.callFailed, Script.get_drop, get_ctlAnswers_initReached]
  rw [exec_init_failed hp hu hq hall hw hk (initFail_deasserts hn hq hd'), initFailed_deasserted_eq]

end

/-- Settles O31, one clause for each failing step, the steps before it gone well. -/
theorem initFailsAtTheFirstFailingStep : Obligations.InitFailsAtTheFirstFailingStep := by
  intro s r j hq hp hu hwait
  have hnone {α : Type} {c : Script α} {a : α} : ∀ n, n < 0 → c.get n = a := nofun
  have hwait := Script.forall_lt_one hwait
  refine ⟨fun hf => ?_, fun h hf => ?_, fun h hf => ?_, fun h hf hd => ?_, fun h hf hd => ?_, fun h hx hf => ?_⟩
  · exact exec_init_lineFails hp hu hq (ks := []) rfl ⟨hnone, hnone, hnone⟩ rfl rfl hf
  · exact exec_init_lineFails hp hu hq (ks := [.modeSelectLow]) rfl ⟨Script.forall_lt_one h, hnone, hnone⟩ rfl rfl hf
  · exact exec_init_lineFails hp hu hq (ks := [.modeSelectLow, .displayLow, .settle]) rfl ⟨h, hnone, hwait⟩ rfl rfl hf
  · exact exec_init_failsDeasserted hp hu hq (ks := [.modeSelectLow, .displayLow, .settle, .displayHigh]) rfl
      ⟨h, hnone, hwait⟩ rfl (initStep_lineFails rfl hq ((get_ctlAnswers_initReached ..).trans hf)) hd
  · exact exec_init_failsDeasserted hp hu hq (ks := [.modeSelectLow, .displayLow, .settle, .displayHigh, .csAssert]) rfl
      ⟨h, hnone, hwait⟩ rfl (initStep_clearFails hq ((get_txAnswers_initReached ..).trans hf)) hd
  · exact exec_init_lineFails hp hu hq
      (ks := [.modeSelectLow, .displayLow, .settle, .displayHigh, .csAssert, .allClear]) rfl
      ⟨h, Script.forall_lt_one hx, hwait⟩ rfl rfl hf

end Sys2Proof.Machine
end

section
/-! SUPPORT. INIT and what else goes on: where a command is refused, where INIT is turned away, and where it goes before
what waits (42_display_controller.md R145, R153). -/

namespace Sys2Proof.Machine

variable {s t : State} {r q : Req} {op : BitVec 3}

/-! ## Refusals -/

/-- From `s` the action is refused with `f`. -/
def Act.RefusedAt {α : Type} (f : Refusal) (x : Act α) (s : State) : Prop := ∃ t, x s = .error (.refused f) t

namespace Act.RefusedAt

variable {α β : Type} {f : Refusal} {x : Act α}

theorem bind (h : Act.RefusedAt f x s) (g : α → Act β) : Act.RefusedAt f (x >>= g) s := by
  obtain ⟨t, ht⟩ := h
  exact ⟨t, Act.bind_error ht⟩

/-- What is refused after an action that ends well. -/
theorem bind_ok {g : α → Act β} {a : α} (hx : x s = .ok a t) (h : Act.RefusedAt f (g a) t) :
    Act.RefusedAt f (x >>= g) s := by
  obtain ⟨u, hu⟩ := h
  exact ⟨u, (Act.bind_ok hx).trans hu⟩

theorem outcome {x : Act Unit} (h : Act.RefusedAt f x s) : x.outcome s = .refused f := by
  obtain ⟨t, ht⟩ := h
  rw [Act.outcome, ht]

/-- An input that is refused stops the operation before whose next event it comes. -/
theorem envTurn {i : Input} {slot : List Input} {later : List (List Input)} (hd : s.during = (i :: slot) :: later)
    (h : Act.RefusedAt f (applyInput i) s.nextSlot) : Act.RefusedAt f envTurn s := by
  obtain ⟨t, ht⟩ := h
  refine ⟨{ t with port := slot.map some ++ t.port }, (envTurn_slot hd).trans ?_⟩
  simp only [applyInputs, ht]

end Act.RefusedAt

theorem issue_refusedAt (hi : s.seq.unit = .init ∨ s.pstate = .initializing) :
    Act.RefusedAt .commandDuringInit (issue r op) s := ⟨s, issue_refused hi⟩

/-- Every host command begins by being issued, and during INIT that is refused (42_display_controller.md R145). -/
theorem exec_toInstr_refused (h : HostOp) (hi : s.seq.unit = .init ∨ s.pstate = .initializing) :
    exec (h.toInstr r) s = .refused .commandDuringInit := by
  cases h with
  | init => exact ((issue_refusedAt hi).bind _).outcome
  | refresh => exact exec_refresh_refused hi
  | blank => exact ((issue_refusedAt hi).bind _).outcome
  | unblank => exact ((issue_refusedAt hi).bind _).outcome
  | detach => exact (((issue_refusedAt hi).bind _).bind _).outcome

/-- The same of a command that arrives inside an operation, a reserved opcode too. -/
theorem arrive_refusedAt (hi : s.seq.unit = .init ∨ s.pstate = .initializing) :
    Act.RefusedAt .commandDuringInit (arrive r op) s := by
  unfold arrive
  split
  · exact (issue_refusedAt hi).bind _
  · exact (issue_refusedAt hi).bind _
  · exact (issue_refusedAt hi).bind _
  · exact (issue_refusedAt hi).bind _
  · exact ((issue_refusedAt hi).bind _).bind _
  · exact (issue_refusedAt hi).bind _

/-- Settles O33: the command comes to `exec`, or before the first call of the sequence. -/
theorem commandDuringInitIsRefused : Obligations.CommandDuringInitIsRefused := by
  refine ⟨fun s h r => exec_toInstr_refused h, fun s r q op later hp hu hd => ?_⟩
  have hturn : Act.RefusedAt .commandDuringInit envTurn ((s.initBegun r).setStep (.initStep .modeSelectLow)) :=
    .envTurn hd (arrive_refusedAt (.inl rfl))
  have hstep : Act.RefusedAt .commandDuringInit (initStep .modeSelectLow) _ := (hturn.bind _).bind _
  rw [exec_init_accepted hp hu]
  exact Act.RefusedAt.outcome (.bind_ok rfl (hstep.bind _))

/-- An INIT that would be accepted beside a running unit is refused (42_display_controller.md R145). -/
theorem exec_init_besideUnit (hp : s.pstate = .uninitialized) (hu : s.seq.unit = .refresh ∨ s.seq.unit = .detach) :
    exec (.init r) s = .refused .initDuringOperation := by
  obtain ⟨hi, hu⟩ : s.seq.unit ≠ .init ∧ s.seq.unit ≠ .idle := by rcases hu with hu | hu <;> rw [hu] <;> decide
  refine Act.RefusedAt.outcome ⟨s.emit (.cmd r 0b001#3), ?_⟩
  rw [initCommand, Act.bind_ok (issue_accepted hi (by rw [hp]; decide)), Act.read_bind_apply, State.emit_pstate,
    if_pos hp, Act.read_bind_apply, State.emit_seq, if_neg hu]
  rfl

/-- The same of one that arrives inside an operation. -/
theorem arrive_init_refusedAt (hp : s.pstate = .uninitialized) (hu : s.seq.unit ≠ .init) :
    Act.RefusedAt .initDuringOperation (arrive q 0b001#3) s := by
  refine .bind_ok (issue_accepted hu (by rw [hp]; decide)) (.bind_ok (Act.read_apply _ _) ?_)
  rw [State.emit_pstate, if_pos hp]
  exact ⟨_, rfl⟩

/-- A REFRESH in `Uninitialized` counts as running until its return: an INIT before its release is refused (log 10). -/
theorem exec_refresh_meets_init {later : List (List Input)} (hp : s.pstate = .uninitialized) (hu : s.seq.unit = .idle)
    (hl : s.lock = .free) (hw : s.waitq = []) (hd : s.during = [] :: [.cmd q 0b001#3] :: later) :
    exec (.refresh r) s = .refused .initDuringOperation := by
  have hturn : Act.RefusedAt .initDuringOperation envTurn (s.grantedAlone r).begun :=
    .envTurn (congrArg List.tail hd) (arrive_init_refusedAt hp (show SeqUnit.refresh ≠ .init by decide))
  rw [exec_refresh_free (by rw [hd]; rfl) (by rw [hu]; decide) (by rw [hp]; decide) hl hw,
    Act.outcome_congr (refreshBody_noPanel (s := s.grantedAlone r) (.inl hp))]
  exact Act.RefusedAt.outcome ((hturn.bind _).bind _)

/-! ## An INIT that goes first -/

/-- An INIT that would be accepted is left at the head of the port, and the request waits on (log 10). -/
theorem serve_init_first {slot : List Input} {later : List (List Input)} (hp : s.pstate = .uninitialized)
    (hd : s.during = (.cmd q 0b001#3 :: slot) :: later) :
    serve s = .ok () { s with during := later, port := some (.cmd q 0b001#3) :: slot.map some ++ s.port } :=
  Act.bind_ok (openTurn_init hp hd)

/-- A DETACH that does not find `Off` joins the waiting requests, and the block serves them (42_display_controller.md
R150). -/
theorem exec_detach_accepted (hu : s.seq.unit ≠ .init) (hi : s.pstate ≠ .initializing) (ho : s.pstate ≠ .off) :
    exec (.detach r) s = serve.outcome
      { s with waitq := s.waitq ++ [(r, .detach)], trace := s.trace ++ [.cmd r 0b101#3] } :=
  Act.outcome_congr (Act.bind_ok (requestDetach_accepted hu hi ho))

/-- Settles O34: inside a unit, inside a refresh, and before the grant. -/
theorem initMeetingAnOperationIsRefused : Obligations.InitMeetingAnOperationIsRefused := by
  refine ⟨fun s r => exec_init_besideUnit, fun s r q later hp hu hl hw hd => exec_refresh_meets_init hp hu hl hw hd, ?_⟩
  intro s r q slot later hc ho hp hu hd
  have hu' : s.seq.unit ≠ .init := by rw [hu]; decide
  have hi : s.pstate ≠ .initializing := by rw [hp]; decide
  have hrefresh : exec (.refresh r) s = .next _ :=
    Act.outcome_ok ((Act.bind_ok (requestRefresh_accepted hu' hi)).trans (serve_init_first hp hd))
  have hdetach : exec (.detach r) s = .next _ :=
    (exec_detach_accepted hu' hi (by rw [hp]; decide)).trans (Act.outcome_ok (serve_init_first hp hd))
  refine ⟨_, _, hrefresh, hdetach, rfl, rfl, ?_, ?_⟩
  · exact stepRunsTheCommandAtThePort _ q 0b001#3 _ _ hc ho hu rfl rfl
  · exact stepRunsTheCommandAtThePort _ q 0b001#3 _ _ hc ho hu rfl rfl

/-! ## Turned away -/

/-- Settles O32: the return with no bytes before it. -/
theorem initOutsideUninitializedIsTurnedAway : Obligations.InitOutsideUninitializedIsTurnedAway := by
  intro s r hp hu hd
  rw [(init_return_comes_later s r [] hp hu).1 hd]
  simp [Memory.produceAll, writeEvents]

end Sys2Proof.Machine
end

section
/-! SUPPORT. The clear command, DETACH with any answers, and who waits behind a teardown (42_display_controller.md R150
to R152). -/

namespace Sys2Proof.Machine

variable {s : State} {r : Req}

/-! ## The clear command -/

/-- Settles O40: the call answers `ok`, or it fails. -/
theorem allClearSendsOneByte : Obligations.AllClearSendsOneByte := fun _ _ hq =>
  ⟨fun hx => Act.outcome_ok (Act.bind_ok (tx_ok hq hx)), fun hx => Act.outcome_ok (Act.bind_ok (tx_fail hq hx))⟩

/-! ## A teardown -/

/-- Settles O39: the command is not queued, and its return comes right after the producers' bytes. -/
theorem detachWhenOffIsTurnedAway : Obligations.DetachWhenOffIsTurnedAway := fun _ _ _ hp hu hd =>
  Act.outcome_ok ((Act.bind_ok (requestDetach_off hu hp)).trans (retTurnedAway_writes hd))

/-- A DETACH that is chosen with the lock free has its body run. -/
theorem grantAndRun_detach (hl : s.lock = .free) (hw : s.waitq[s.arb.get 0 % s.waitq.length]? = some (r, .detach)) :
    grantAndRun s = detachBody r
      { s with
        lock := .held r
        caller := r
        waitq := s.waitq.eraseIdx (s.arb.get 0 % s.waitq.length)
        arb := s.arb.drop 1
        trace := s.trace ++ [.acq r] } := Act.bind_ok (grantLock_free hl hw)

theorem detachBody_notOff (ho : s.pstate ≠ .off) (hi : s.pstate ≠ .initializing) :
    detachBody r s = detachLower r ((s.setUnit .detach).setStep (.detachStep .displayLow)) := by
  rw [detachBody, Act.update_bind_apply, Act.read_bind_apply]
  exact (congrFun (if_neg hi) _).trans (congrFun (if_neg ho) _)

/-- A teardown granted in `Off` has only its end, which is that of a refresh without a panel
(42_display_controller.md R151). -/
theorem detachBody_off (ho : s.pstate = .off) :
    detachBody r s = finishRefresh r .invalidArgument (s.setUnit .detach) := by
  rw [detachBody, Act.update_bind_apply, Act.read_bind_apply]
  exact (congrFun (if_neg (show ¬ s.pstate = .initializing by rw [ho]; decide)) _).trans (congrFun (if_pos ho) _)

/-- The end of a teardown, whatever its last call answers (42_display_controller.md R150). -/
theorem detachFinish_answered (hq : s.Quiet) (hc : s.ctlAnswers.get 0 ≠ .never) :
    detachFinish r s = .ok ()
      { s.answeredSet .chipSelect false with
        pstate := .off
        lock := .free
        seq := { s.seq with unit := .idle }
        status := .ok
        trace := s.trace ++ [setEvent .chipSelect false (s.ctlAnswers.get 0), .rel r, .ret r .ok] } := by
  rw [detachFinish, Act.bind_ok (ctlSet_answered hq hc), Act.update_bind_apply]
  refine (finishRefresh_quiet (r := r) (st := .ok) (s := (s.answeredSet _ _).setPState .off) hq).trans ?_
  simp [State.answeredSet, State.setPState]

/-- A teardown that holds the lock, whatever its two calls answer (42_display_controller.md R150). -/
theorem detachBody_answered (hq : s.Quiet) (ho : s.pstate ≠ .off) (hi : s.pstate ≠ .initializing)
    (hc : s.ctlAnswers.get 0 ≠ .never) (hc' : s.ctlAnswers.get 1 ≠ .never) :
    detachBody r s = .ok ()
      { s with
        pstate := .off
        lock := .free
        status := .ok
        seq := ⟨.idle, .detachStep .csLow, s.seq.ln, s.seq.pxi⟩
        ctl := (s.ctl.answered .displayEnable false (s.ctlAnswers.get 0)).answered .chipSelect false
          (s.ctlAnswers.get 1)
        ctlAnswers := s.ctlAnswers.drop 2
        trace := s.trace ++
          [setEvent .displayEnable false (s.ctlAnswers.get 0), setEvent .chipSelect false (s.ctlAnswers.get 1), .rel r,
            .ret r .ok] } := by
  have hlower := ctlSet_answered (s := (s.setUnit .detach).setStep (.detachStep .displayLow)) (l := .displayEnable)
    (v := false) hq hc
  rw [detachBody_notOff ho hi, detachLower, Act.bind_ok hlower, Act.update_bind_apply]
  split
  all_goals
    rw [detachFinish_answered (by exact hq) (by simpa [State.answeredSet] using hc')]
    simp [State.answeredSet, State.setUnit, State.setStep, State.setPState]

/-- With nothing scheduled before the grant, the block serves whoever waits. -/
theorem serve_quiet (hq : s.Quiet) : serve s = grantAndRun s := Act.bind_ok (openTurn_quiet hq)

/-- The state in which a DETACH that meets no other request has just got the free lock. -/
def State.detachGranted (s : State) (r : Req) : State :=
  { s with lock := .held r, caller := r, arb := s.arb.drop 1, trace := s.trace ++ [.cmd r 0b101#3, .acq r] }

/-- A DETACH that finds the lock free and nobody waiting is granted it. -/
theorem exec_detach_free (hq : s.Quiet) (hu : s.seq.unit ≠ .init) (hi : s.pstate ≠ .initializing) (ho : s.pstate ≠ .off)
    (hl : s.lock = .free) (hw : s.waitq = []) :
    exec (.detach r) s = (detachBody r).outcome (s.detachGranted r) := by
  rw [exec_detach_accepted hu hi ho, Act.outcome_congr (serve_quiet (by exact hq))]
  refine Act.outcome_congr ((grantAndRun_detach (r := r) (by exact hl) ?_).trans ?_)
  · simp [hw, Nat.mod_one]
  · simp [State.detachGranted, hw, Nat.mod_one]

/-- Settles O38: the command is granted the lock alone, and both calls answer. -/
theorem detachTurnsTheDisplayOff : Obligations.DetachTurnsTheDisplayOff := by
  intro s r hq ho hi hu hl hw hc hc'
  rw [exec_detach_free hq (by rw [hu]; decide) hi ho hl hw,
    Act.outcome_ok (detachBody_answered (s := s.detachGranted r) hq ho hi hc hc')]
  simp [State.detachGranted, hl]

/-! ## Behind a teardown -/

/-- In `Off` whoever is granted the lock has only the end of its operation before it, a refresh and a teardown alike
(42_display_controller.md R151; 43_refresh_coordinator.md R163). -/
theorem grantAndRun_off {op : WaitOp} (ho : s.pstate = .off) (hl : s.lock = .free)
    (hw : s.waitq[s.arb.get 0 % s.waitq.length]? = some (r, op)) :
    ∃ u, grantAndRun s = finishRefresh r .invalidArgument u ∧ u.during = s.during ∧ u.pstate = s.pstate ∧
      u.waitq = s.waitq.eraseIdx (s.arb.get 0 % s.waitq.length) ∧ u.trace = s.trace ++ [.acq r] := by
  cases op with
  | refresh => exact ⟨_, (grantAndRun_refresh hl hw).trans (refreshBody_noPanel (.inr ho)), rfl, rfl, rfl, rfl⟩
  | detach => exact ⟨_, (grantAndRun_detach hl hw).trans (detachBody_off ho), rfl, rfl, rfl, rfl⟩

/-- Settles O47: the chosen request is granted the lock and has only its end. -/
theorem anyWaiterBehindATeardownIsAnswered : Obligations.AnyWaiterBehindATeardownIsAnswered := by
  intro s n r op hq hc ho hu hport hp hl hw harb
  have hn : s.arb.get 0 % s.waitq.length = n := by
    rw [harb, Nat.mod_eq_of_lt (List.getElem?_eq_some_iff.1 hw).1]
  obtain ⟨u, hrun, hquiet, hpstate, hwaitq, htrace⟩ := grantAndRun_off hp hl (hn.symm ▸ hw)
  have hserve := (serve_quiet hq).trans (hrun.trans (finishRefresh_quiet (hquiet.trans hq)))
  have hstep : step s = serve.outcome s := by
    rw [step_idle hc ho hu, idleStep, hport]
    exact if_neg fun h => by simp [h] at hw
  exact ⟨_, hstep.trans (Act.outcome_ok hserve), hwaitq.trans (by rw [hn]), rfl, hpstate.trans hp, rfl,
    by simp [htrace]⟩

end Sys2Proof.Machine
end

section
/-! SUPPORT. In `Off` nothing but a reset writes the power state: each part that a step can run there keeps it
(42_display_controller.md R151; 70_reset_and_hazards.md R210). -/

namespace Sys2Proof.Machine

variable {s t : State} {r : Req}

/-- The block is off, and no reset is scheduled inside operations. -/
def State.StaysOff (s : State) : Prop := s.pstate = .off ∧ s.noResetDuring = true

/-- What follows a read knows the value read. -/
theorem Act.Keeps.read_bind {α β : Type} {P : State → Prop} {g : State → α} {f : α → Act β}
    (hf : ∀ s, P s → Act.Keeps P (f (g s))) : Act.Keeps P (Act.read g >>= f) := fun s hs => hf s hs s hs

/-- An action that goes on as another one, from a state with the property. -/
theorem Act.Keeps.of_run {P : State → Prop} {x : Act Unit}
    (h : ∀ s, P s → ∃ (y : Act Unit) (u : State), x s = y u ∧ P u ∧ Act.Keeps P y) : Act.Keeps P x := by
  intro s hs
  obtain ⟨y, u, hrun, hu, hy⟩ := h s hs
  unfold Act.final
  rw [hrun]
  exact hy u hu

/-! ## What arrives -/

theorem issue_staysOff (r : Req) (op : BitVec 3) : Act.Keeps State.StaysOff (issue r op) := by
  intro s h
  unfold Act.final
  by_cases hi : s.seq.unit = .init ∨ s.pstate = .initializing
  · rwa [issue_refused hi]
  · obtain ⟨hu, hp⟩ := not_or.1 hi
    rwa [issue_accepted hu hp]

theorem retNow_staysOff (r : Req) (st : Status) : Act.Keeps State.StaysOff (retNow r st) := .update fun _ => id

theorem turnAway_staysOff (r : Req) : Act.Keeps State.StaysOff (turnAway r) := .update fun _ => id

/-- BLANK and UNBLANK find no panel (42_display_controller.md R148). -/
theorem blanking_staysOff {op : BitVec 3} {v : Bool} {p : PState} :
    Act.Keeps State.StaysOff (blanking r op v p) := by
  refine (issue_staysOff r op).bind fun _ => .read_bind fun s h => ?_
  rw [h.1]
  exact retNow_staysOff r _

theorem requestRefresh_staysOff (r : Req) : Act.Keeps State.StaysOff (requestRefresh r) :=
  (issue_staysOff r _).bind fun _ => .update fun _ => id

theorem requestDetach_staysOff (r : Req) : Act.Keeps State.StaysOff (requestDetach r) :=
  (issue_staysOff r _).bind fun _ => .bind (.read _) fun _ =>
    .ite (.pure _) (.bind (.update fun _ => id) fun _ => .pure _)

theorem arrive_staysOff (r : Req) (op : BitVec 3) : Act.Keeps State.StaysOff (arrive r op) := by
  unfold arrive
  split
  · exact (issue_staysOff r _).bind fun _ => .bind (.read _) fun _ => .ite (.stop _) (turnAway_staysOff r)
  · exact requestRefresh_staysOff r
  · exact blankNow_eq r ▸ blanking_staysOff
  · exact unblankNow_eq r ▸ blanking_staysOff
  · exact (requestDetach_staysOff r).bind fun _ => .ite (.pure _) (turnAway_staysOff r)
  · exact (issue_staysOff r op).bind fun _ => turnAway_staysOff r

theorem answerNow_staysOff (k : Nat) : Act.Keeps State.StaysOff (answerNow k) := by
  intro s h
  unfold Act.final
  cases hl : s.lock with
  | held r => rwa [answerNow_held hl]
  | free =>
    cases ho : s.owed[k]? with
    | none => rwa [answerNow_none ho]
    | some c => rwa [answerNow_owed hl ho]

theorem produceByte_staysOff (a : Nat) (b : Byte) : Act.Keeps State.StaysOff (produceByte a b) := by
  intro s h
  unfold Act.final
  rw [produceByte_apply]
  dsimp only
  split <;> exact h

/-- Every input but a reset leaves the block off. -/
theorem applyInput_staysOff (i : Input) (hi : i.isNoReset = true) : Act.Keeps State.StaysOff (applyInput i) := by
  cases i with
  | cmd r op => exact arrive_staysOff r op
  | wr a b => exact produceByte_staysOff a b
  | policy p => exact .update fun _ => id
  | reset u => cases hi
  | answer k => exact answerNow_staysOff k
  | putOff => exact .pure _

theorem State.StaysOff.later {slot : List Input} {d : List (List Input)} (h : s.StaysOff) (hd : s.during = slot :: d) :
    ({ s with during := d } : State).StaysOff := by
  obtain ⟨hp, hr⟩ := h
  rw [State.noResetDuring, hd, List.all_cons, Bool.and_eq_true] at hr
  exact ⟨hp, hr.2⟩

theorem State.StaysOff.noReset (h : s.StaysOff) : ∀ slot ∈ s.during, ∀ i ∈ slot, i.isNoReset = true :=
  fun slot hslot => List.all_eq_true.1 (List.all_eq_true.1 h.2 slot hslot)

theorem envTurn_staysOff : Act.Keeps State.StaysOff envTurn :=
  envTurn_keeps (fun _ _ => id) (fun _ _ _ hd h => h.later hd) (fun _ => State.StaysOff.noReset) applyInput_staysOff

theorem openTurn_staysOff : Act.Keeps State.StaysOff openTurn :=
  openTurn_keeps (fun _ _ => id) (fun _ _ _ hd h => h.later hd) (fun _ => State.StaysOff.noReset) applyInput_staysOff

/-! ## Operations -/

theorem retTurnedAway_staysOff (r : Req) : Act.Keeps State.StaysOff (retTurnedAway r) :=
  .bind (.read _) fun _ => openTurn_staysOff.bind fun _ => .ite (turnAway_staysOff r) (retNow_staysOff r _)

theorem finishRefresh_staysOff (r : Req) (st : Status) : Act.Keeps State.StaysOff (finishRefresh r st) :=
  .bind (envTurn_staysOff.bind fun _ => .bind (.update fun _ => id) fun _ => .update fun _ => id) fun _ =>
    envTurn_staysOff.bind fun _ => retNow_staysOff r st

/-- With nobody to choose, nothing runs. -/
theorem grantAndRun_none (hw : s.waitq[s.arb.get 0 % s.waitq.length]? = none) : grantAndRun s = .ok () s := by
  have h : grantLock s = .ok none s := by
    unfold grantLock
    rw [hw]
    split <;> rfl
  exact Act.bind_ok h

/-- Whoever is granted the lock in `Off` has only its end. -/
theorem grantAndRun_staysOff : Act.Keeps State.StaysOff grantAndRun := by
  refine .of_run fun s h => ?_
  by_cases hl : s.lock = .free
  · cases hw : s.waitq[s.arb.get 0 % s.waitq.length]? with
    | none => exact ⟨pure (), s, grantAndRun_none hw, h, .pure _⟩
    | some w =>
      obtain ⟨u, hrun, hd, hp, -, -⟩ := grantAndRun_off h.1 hl hw
      refine ⟨_, u, hrun, ⟨hp.trans h.1, ?_⟩, finishRefresh_staysOff w.1 _⟩
      rw [State.noResetDuring, hd]
      exact h.2
  · exact ⟨pure (), s, grantAndRun_held hl, h, .pure _⟩

theorem serve_staysOff : Act.Keeps State.StaysOff serve :=
  openTurn_staysOff.bind fun _ => .ite (.pure _) grantAndRun_staysOff

/-- INIT is turned away (42_display_controller.md R153). -/
theorem initCommand_staysOff (r : Req) : Act.Keeps State.StaysOff (initCommand r) := by
  refine (issue_staysOff r _).bind fun _ => .read_bind fun s h => ?_
  rw [if_neg (by rw [h.1]; decide)]
  exact retTurnedAway_staysOff r

theorem exec_toInstr_staysOff (h : HostOp) (hs : s.StaysOff) (ht : exec (h.toInstr r) s = .next t) : t.StaysOff := by
  have close {x : Act Unit} (ho : x.outcome s = .next t) (hx : Act.Keeps State.StaysOff x) : t.StaysOff := hx.next hs ho
  cases h with
  | init => exact close ht (initCommand_staysOff r)
  | refresh => exact close ht ((requestRefresh_staysOff r).bind fun _ => serve_staysOff)
  | blank => exact close ht (blanking_staysOff)
  | unblank => exact close ht (blanking_staysOff)
  | detach =>
    exact close ht ((requestDetach_staysOff r).bind fun _ => .ite serve_staysOff (retTurnedAway_staysOff r))

/-! ## One step -/

theorem idleTurn_staysOff (hs : s.StaysOff) (ht : idleTurn s = .next t) : t.StaysOff := by
  unfold idleTurn at ht
  split at ht
  · exact (answerNow_staysOff 0).next hs ht
  · exact serve_staysOff.next hs ht

theorem idleStep_staysOff (hs : s.StaysOff) (hr : s.noResetAtPort = true) (ht : idleStep s = .next t) : t.StaysOff := by
  unfold idleStep at ht
  split at ht
  next hport =>
    split at ht
    next hd =>
      obtain ⟨h, -, rfl⟩ := decode_port_eq_ok hd
      exact exec_toInstr_staysOff h (by exact hs) ht
    next => exact ((issue_staysOff _ _).bind fun _ => retTurnedAway_staysOff _).next (by exact hs) ht
  next hport =>
    rw [State.noResetAtPort, hport] at hr
    exact (applyInput_staysOff _ hr).next (by exact hs) ht
  · exact idleTurn_staysOff (by exact hs) ht
  · exact idleTurn_staysOff hs ht

theorem stuckInput_staysOff (i : Input) (hi : i.isNoReset = true) : Act.Keeps State.StaysOff (stuckInput i) := by
  cases i with
  | cmd r op =>
    refine (issue_staysOff r op).bind fun _ => ?_
    split
    · exact .update fun _ => id
    · exact .update fun _ => id
    · exact .pure _
  | wr a b => exact produceByte_staysOff a b
  | policy p => exact .update fun _ => id
  | reset u => cases hi
  | answer k => exact .pure _
  | putOff => exact .pure _

theorem stuckStep_staysOff (hs : s.StaysOff) (hr : s.noResetAtPort = true) (ht : stuckStep s = .next t) :
    t.StaysOff := by
  unfold stuckStep at ht
  split at ht
  next hport =>
    rw [State.noResetAtPort, hport] at hr
    exact (stuckInput_staysOff _ hr).next (by exact hs) ht
  · cases ht; exact hs
  · cases ht; exact hs

/-- Settles O56: a stuck block only takes an input, and any other block with the invariant is between operations, where
every command finds `Off`. -/
theorem offIsTerminal : Obligations.OffIsTerminal := by
  intro s t hs hp hd hr ht
  have hoff : s.StaysOff := ⟨hp, hd⟩
  unfold step at ht
  split at ht
  · exact (stuckStep_staysOff hoff hr ht).1
  · have hm : s.In .idle := hs.mid (by simpa using ‹¬ s.inFlight.isSome›)
    rw [hs.ordered] at ht
    dsimp only at ht
    rw [if_pos hm.unit] at ht
    exact (idleStep_staysOff hoff hr ht).1

end Sys2Proof.Machine
end

section
/-! SUPPORT. REFRESH and the lock with nothing arriving: requests that wait, a refresh without a panel, and a refresh or a
teardown that is granted the lock (43_refresh_coordinator.md R161 to R174). -/

namespace Sys2Proof.Machine

variable {s t : State} {r : Req} {st : Status}

theorem headD_nil_of_quiet (hq : s.Quiet) : s.during.headD [] = [] := by rw [hq]; rfl

/-! ## Turned away, or waiting -/

/-- Settles O45: the refresh is granted the lock alone, and has only its end. -/
theorem refreshWithoutAPanelIsTurnedAway : Obligations.RefreshWithoutAPanelIsTurnedAway := by
  intro s r hq hp hu hl hw
  rw [exec_refresh_noPanel (headD_nil_of_quiet hq) hu hl hw hp (envTurn_quiet (congrArg List.tail hq))
    (envTurn_quiet (congrArg List.tail hq))]
  simp [State.returned, State.released, State.begun, State.grantedAlone, State.emit, State.setUnit, State.setStatus,
    refreshOpening, Seq.setIdle_self hu, hq, hl, hw]

/-- Settles O46: nobody is granted a lock that is held. -/
theorem requestsWaitBehindTheLock : Obligations.RequestsWaitBehindTheLock := by
  intro s r h hq hl hu hp
  have hheld : s.lock ≠ .free := by rw [hl]; nofun
  refine ⟨?_, fun ho => ?_⟩
  · simp [exec_refresh_held (headD_nil_of_quiet hq) hu hp hheld, hq]
  · rw [exec_detach_accepted hu hp ho, Act.outcome_congr (serve_quiet (by exact hq))]
    exact Act.outcome_ok (grantAndRun_held hheld)

/-! ## A refresh that holds the lock -/

/-- The display is up: a refresh has a panel (43_refresh_coordinator.md R163). -/
def PState.HasPanel (p : PState) : Prop := p = .active ∨ p = .blanked

theorem PState.HasPanel.not_initializing {p : PState} (h : p.HasPanel) : p ≠ .initializing := by
  rcases h with rfl | rfl <;> decide

theorem PState.HasPanel.not_noPanel {p : PState} (h : p.HasPanel) : ¬ p.NoPanel := by
  rcases h with rfl | rfl <;> simp [PState.NoPanel]

/-- A refresh with a panel is the line loop and then its end (43_refresh_coordinator.md R163, R170). -/
theorem refreshBody_panel (hp : s.pstate.HasPanel) :
    refreshBody r s = (lineLoop (List.finRange Config.height) >>= finishRefresh r) s.begun := by
  unfold refreshBody
  rw [Act.update_bind_apply, Act.read_bind_apply]
  exact (congrFun (if_neg hp.not_initializing) _).trans (congrFun (if_neg hp.not_noPanel) _)

theorem finishRefresh_returns (hq : s.Quiet) : finishRefresh r st s = .ok () ((s.released r).returned r st) :=
  finishRefresh_of_envTurn (envTurn_quiet hq) (envTurn_quiet hq)

/-- A refresh whose line loop ends well gives the lock back and returns the loop's status
(43_refresh_coordinator.md R168). -/
theorem refreshBody_returns (hp : s.pstate.HasPanel)
    (hloop : lineLoop (List.finRange Config.height) s.begun = .ok st t) (hq : t.Quiet) :
    refreshBody r s = .ok () ((t.released r).returned r st) :=
  (refreshBody_panel hp).trans ((Act.bind_ok hloop).trans (finishRefresh_returns hq))

/-- The same of a REFRESH that meets no other request. -/
theorem exec_refresh_returns (hq : s.Quiet) (hp : s.pstate.HasPanel) (hu : s.seq.unit = .idle) (hl : s.lock = .free)
    (hw : s.waitq = []) (hloop : lineLoop (List.finRange Config.height) (s.grantedAlone r).begun = .ok st t)
    (ht : t.Quiet) : exec (.refresh r) s = .next ((t.released r).returned r st) := by
  rw [exec_refresh_free (headD_nil_of_quiet hq) (by rw [hu]; decide) hp.not_initializing hl hw]
  exact Act.outcome_ok (refreshBody_returns hp hloop ht)

/-! ## Every answer `ok` -/

/-- The state after the lines `ns` of a refresh: the registers as the last of them leaves them, the answers used up and the
events by all of them. -/
theorem foldl_lineDone (ns : List (Fin 240)) (s : State) :
    ns.foldl State.lineDone s =
      { ns.getLast?.elim s s.lineDone with
        ctlAnswers := s.ctlAnswers.drop (2 * ns.length)
        txAnswers := s.txAnswers.drop (2 * ns.length)
        rdAnswers := s.rdAnswers.drop (400 * ns.length)
        waitAnswers := s.waitAnswers.drop ns.length
        grants := s.grants.drop ns.length
        trace := s.trace ++ ns.flatMap fun n : Fin 240 => lineEvents s.fb n } := by
  induction ns generalizing s with
  | nil => simp
  | cons n ns ih =>
    rw [List.foldl_cons, ih, List.getLast?_cons]
    cases ns.getLast? <;> simp [State.lineDone, Nat.mul_add, Nat.add_comm]

/-- The events of the first lines, by the lines' numbers. -/
theorem flatMap_lineEvents_take {k : Nat} (hk : k ≤ 240) (m : Memory) :
    (((List.finRange 240).take k).flatMap fun n : Fin 240 => lineEvents m n) = linesEvents m k := by
  have htake : ((List.finRange 240).take k).map Fin.val = List.range k := by
    rw [List.map_take, List.map_coe_finRange_eq_range, List.take_range, Nat.min_eq_left hk]
  rw [linesEvents, ← htake, List.flatMap_map]

theorem getLast?_lines : (List.finRange 240).getLast? = some 239 :=
  List.getLast?_eq_some_iff.2 ⟨_, List.finRange_succ_last⟩

/-- A refresh that holds the lock, with a panel and every answer `ok` (43_refresh_coordinator.md R174). -/
theorem State.AllOk.refreshBody (h : s.AllOk) (hp : s.pstate.HasPanel) :
    refreshBody r s = .ok () { s.fullyRefreshed r [] with caller := s.caller, arb := s.arb, lock := .free } := by
  have h0 : s.begun.AllOk := ⟨h.quiet, { h.lines with }, h.tx, h.grants⟩
  have hevents := flatMap_lineEvents_take (Nat.le_refl 240) s.fb
  rw [List.take_of_length_le (by simp)] at hevents
  rw [refreshBody_returns hp (h0.lineLoop _) ((State.GoesTo.linesDone _ _).quiet h0.quiet), foldl_lineDone,
    getLast?_lines]
  simp [State.fullyRefreshed, State.lineDone, State.begun, State.released, State.returned, State.emit, State.setUnit,
    State.setStatus, hevents, refreshClosing, Config.height]
  decide

/-- Settles O41: the refresh is granted the lock alone, and every line goes well. -/
theorem refreshSendsEveryLine : Obligations.RefreshSendsEveryLine := by
  intro s r hq hp hu hl hw hlines htx hgr
  have hg : (s.grantedAlone r).AllOk := ⟨congrArg List.tail hq, { hlines with }, htx, hgr⟩
  rw [exec_refresh_free (headD_nil_of_quiet hq) (by rw [hu]; decide) (PState.HasPanel.not_initializing hp) hl hw,
    Act.outcome_ok (hg.refreshBody hp)]
  simp [State.fullyRefreshed, State.grantedAlone, hq, hl, hw]

/-- After such a refresh every answer is `ok` as before. -/
theorem State.AllOk.fullyRefreshed (h : s.AllOk) (r : Req) (es : List Event) : (s.fullyRefreshed r es).AllOk where
  quiet := h.quiet
  lines :=
    ⟨fun n => (Script.get_drop _ 480 n).trans (h.lines.ctl _), fun n => (Script.get_drop _ 96000 n).trans (h.lines.rd _),
      fun n => (Script.get_drop _ 240 n).trans (h.lines.wait _)⟩
  tx n := (Script.get_drop _ 480 n).trans (h.tx _)
  grants n := (Script.get_drop _ 240 n).trans (h.grants _)

/-- The bus events of a refresh are those between its grant and its release. -/
theorem filter_isBus_refresh (r : Req) (st : Status) (es : List Event) :
    (refreshOpening r ++ es ++ refreshClosing r st).filter Event.isBus = es.filter Event.isBus := by
  simp [refreshOpening, refreshClosing, Event.isBus]

/-- Settles O50: the second refresh starts from the state of the first's end, where the buffer is the same and every
answer `ok` again. -/
theorem refreshOfAnUnchangedBufferRepeatsItself : Obligations.RefreshOfAnUnchangedBufferRepeatsItself := by
  intro s r q hq hp hu hl hw hlines htx hgr
  have ht := State.AllOk.fullyRefreshed (s := s) ⟨hq, hlines, htx, hgr⟩ r (refreshOpening r)
  refine ⟨_, _, refreshOpening r ++ linesEvents s.fb 240 ++ refreshClosing r .ok,
    refreshOpening q ++ linesEvents s.fb 240 ++ refreshClosing q .ok, refreshSendsEveryLine s r hq hp hu hl hw hlines htx hgr,
    refreshSendsEveryLine _ q ht.quiet hp rfl hl hw ht.lines ht.tx ht.grants, ?_, ?_, ?_⟩
  · simp [State.fullyRefreshed]
  · simp [State.fullyRefreshed]
  · rw [filter_isBus_refresh, filter_isBus_refresh]

/-! ## Who waits at an idle block -/

/-- With a request waiting, an idle block whose turn it is grants the lock. -/
theorem step_idle_serves {op : WaitOp} {n : Nat} (hq : s.Quiet) (hc : s.inFlight = none) (ho : s.ordered = none)
    (hu : s.seq.unit = .idle) (hp : s.port = [] ∨ ∃ p, s.port = none :: p) (hw : s.waitq[n]? = some (r, op)) :
    step s = grantAndRun.outcome { s with port := s.port.tail } := by
  have hwait : s.waitq ≠ [] := fun h => by simp [h] at hw
  rw [step_idle_turn hc ho hu hp, idleTurn, if_neg (by exact hwait)]
  exact Act.outcome_congr (serve_quiet (by exact hq))

/-- A waiting refresh that is granted the lock, with a panel and every answer `ok`. -/
theorem State.AllOk.grantAndRun_refresh (h : s.AllOk) (hp : s.pstate.HasPanel) (hl : s.lock = .free)
    (hw : s.waitq[s.arb.get 0 % s.waitq.length]? = some (r, .refresh)) :
    grantAndRun s = .ok ()
      { s.fullyRefreshed r [.acq r] with waitq := s.waitq.eraseIdx (s.arb.get 0 % s.waitq.length) } := by
  rw [Machine.grantAndRun_refresh hl hw, State.AllOk.refreshBody]
  · simp [State.fullyRefreshed, hl]
  · exact ⟨h.quiet, { h.lines with }, h.tx, h.grants⟩
  · exact hp

/-- A waiting teardown that is granted the lock, with a panel and both lines answering `ok`. -/
theorem grantAndRun_detach_ok (hq : s.Quiet) (hp : s.pstate.HasPanel) (hl : s.lock = .free) (hlines : s.LinesAnswerOk)
    (hw : s.waitq[s.arb.get 0 % s.waitq.length]? = some (r, .detach)) :
    grantAndRun s = .ok ()
      { s with
        pstate := .off
        status := .ok
        seq := ⟨.idle, .detachStep .csLow, s.seq.ln, s.seq.pxi⟩
        caller := r
        ctl := { s.ctl with displayEnable := false, chipSelect := false }
        ctlAnswers := s.ctlAnswers.drop 2
        arb := s.arb.drop 1
        waitq := s.waitq.eraseIdx (s.arb.get 0 % s.waitq.length)
        trace := s.trace ++
          [.acq r, .set .displayEnable false true, .set .chipSelect false true, .rel r, .ret r .ok] } := by
  have hon : s.pstate ≠ .off := by rcases hp with hp | hp <;> rw [hp] <;> decide
  have hok (n : Nat) : s.ctlAnswers.get n ≠ .never := by rw [hlines.ctl]; nofun
  rw [grantAndRun_detach hl hw, detachBody_answered]
  · simp [hlines.ctl, Ctl.answered, Ctl.set, setEvent, hl]
  exacts [hq, hon, hp.not_initializing, hok 0, hok 1]

/-- Settles O48: the chosen request is granted the lock, and its operation meets `ok` only. -/
theorem idleBlockServesTheChosenWaiter : Obligations.IdleBlockServesTheChosenWaiter := by
  rintro s _ r op hq hc ho hu hport hp hl hw rfl hlines htx hgr
  have hstep := step_idle_serves hq hc ho hu hport hw
  constructor
  · rintro rfl
    have hall : ({ s with port := s.port.tail } : State).AllOk := ⟨hq, { hlines with }, htx, hgr⟩
    exact hstep.trans (Act.outcome_ok (hall.grantAndRun_refresh hp hl hw))
  · rintro rfl
    have hok : ({ s with port := s.port.tail } : State).LinesAnswerOk := { hlines with }
    exact hstep.trans (Act.outcome_ok (grantAndRun_detach_ok hq hp hl hok hw))

end Sys2Proof.Machine
end

section
/-! SUPPORT. A refresh does not look at the power state once it has found a panel: two runs side by side, in two power
states (43_refresh_coordinator.md R163). -/

namespace Sys2Proof.Machine

variable {α β : Type} {p : PState} {s t : State}

/-- Two ends of an action that differ in the power state only, which is `p` at the second; nothing arrives after a good
end. -/
inductive Act.SameAt (p : PState) : EStateM.Result Stop State α → EStateM.Result Stop State α → Prop where
  | ok {a : α} {t : State} (quiet : t.Quiet) : SameAt p (.ok a t) (.ok a (t.setPState p))
  | error {e : Stop} {t : State} : SameAt p (.error e t) (.error e (t.setPState p))

/-- With nothing arriving the action does in the power state `p` what it does in any other. -/
def Act.PowerBlind (p : PState) (x : Act α) : Prop := ∀ s : State, s.Quiet → Act.SameAt p (x s) (x (s.setPState p))

theorem Act.PowerBlind.pure (a : α) : Act.PowerBlind p (pure a : Act α) := fun _ hq => .ok hq

theorem Act.PowerBlind.bind {x : Act α} {f : α → Act β} (hx : Act.PowerBlind p x) (hf : ∀ a, Act.PowerBlind p (f a)) :
    Act.PowerBlind p (x >>= f) := by
  intro s hq
  have h := hx s hq
  generalize hs : x s = y, hsp : x (s.setPState p) = z at h
  cases h with
  | ok ht =>
    rw [Act.bind_ok hs, Act.bind_ok hsp]
    exact hf _ _ ht
  | error =>
    rw [Act.bind_error hs, Act.bind_error hsp]
    exact .error

theorem Act.PowerBlind.read {g : State → α} (hg : ∀ s, g (s.setPState p) = g s) : Act.PowerBlind p (Act.read g) := by
  intro s hq
  rw [Act.read_apply, Act.read_apply, hg]
  exact .ok hq

/-- An update that neither looks at nor writes the power state and what is scheduled. -/
theorem Act.PowerBlind.update {g : State → State} (hd : ∀ s, (g s).during = s.during)
    (hg : ∀ s, g (s.setPState p) = (g s).setPState p) : Act.PowerBlind p (Act.update g) := by
  intro s hq
  rw [Act.update_apply, Act.update_apply, hg]
  exact .ok ((hd s).trans hq)

theorem envTurn_powerBlind : Act.PowerBlind p envTurn := by
  intro s hq
  rw [envTurn_quiet hq, envTurn_quiet (s := s.setPState p) hq]
  exact .ok hq

theorem ctlSet_powerBlind (l : Line) (v : Bool) : Act.PowerBlind p (ctlSet l v) := by
  refine envTurn_powerBlind.bind fun _ s hq => ?_
  by_cases ha : s.ctlAnswers.get 0 = .never
  · rw [ctlSetNow_never ha, ctlSetNow_never (s := s.setPState p) ha]
    exact .error
  · rw [ctlSetNow_answers ha, ctlSetNow_answers (s := s.setPState p) ha]
    exact .ok hq

theorem tx_powerBlind (bytes : List Byte) : Act.PowerBlind p (tx bytes) := by
  refine envTurn_powerBlind.bind fun _ s hq => ?_
  cases ha : s.txAnswers.get 0 with
  | ok =>
    rw [txNow_ok ha, txNow_ok (s := s.setPState p) ha]
    exact .ok hq
  | fail n =>
    rw [txNow_fail ha, txNow_fail (s := s.setPState p) ha]
    exact .ok hq
  | never =>
    rw [txNow_never ha, txNow_never (s := s.setPState p) ha]
    exact .error

theorem wait_powerBlind (d : Delay) : Act.PowerBlind p (wait d) := by
  refine envTurn_powerBlind.bind fun _ s hq => ?_
  cases ha : s.waitAnswers.get 0 with
  | true =>
    rw [waitNow_ends ha, waitNow_ends (s := s.setPState p) ha]
    exact .ok hq
  | false =>
    rw [waitNow_never ha, waitNow_never (s := s.setPState p) ha]
    exact .error

theorem rd_powerBlind (a : Nat) : Act.PowerBlind p (rd a) := by
  refine envTurn_powerBlind.bind fun _ s hq => ?_
  by_cases hin : a + 3 < Config.fbBytes
  · cases ha : s.rdAnswers.get 0 with
    | true =>
      rw [rdNow_returns hin ha, rdNow_returns (s := s.setPState p) hin ha]
      exact .ok hq
    | false =>
      rw [rdNow_never hin ha, rdNow_never (s := s.setPState p) hin ha]
      exact .error
  · rw [rdNow_outside hin, rdNow_outside hin]
    exact .error

theorem rowParts_powerBlind (p : PState) (y : Nat) : Act.RowParts (fun _ => Act.PowerBlind p) y where
  pure := .pure
  bind := .bind
  rd _ := rd_powerBlind _
  setPxi _ := .update (fun _ => rfl) fun _ => rfl
  sample _ := .update (fun _ => rfl) fun _ => rfl
  dropSamples := .update (fun _ => rfl) fun _ => rfl
  packLine := .update (fun _ => rfl) fun _ => rfl

theorem lineParts_powerBlind (p : PState) : Act.LineParts fun _ => Act.PowerBlind p where
  pure := .pure
  bind := .bind
  chipSelect _ := ctlSet_powerBlind _ _
  tx := tx_powerBlind
  gap := wait_powerBlind _
  grant _ hq := .ok hq
  encode n := (rowParts_powerBlind p n).encodeRow
  readLb := .read fun _ => rfl
  readHdr := .read fun _ => rfl
  readResult := .read fun _ => rfl
  readPolicyS := .read fun _ => rfl
  setStep _ := .update (fun _ => rfl) fun _ => rfl
  setResult _ := .update (fun _ => rfl) fun _ => rfl
  close _ := .update (fun _ => rfl) fun _ => rfl
  header _ := .update (fun _ => rfl) fun _ => rfl
  openLine _ := .update (fun _ => rfl) fun _ => rfl

theorem finishRefresh_powerBlind (r : Req) (st : Status) : Act.PowerBlind p (finishRefresh r st) :=
  .bind (envTurn_powerBlind.bind fun _ => .bind (.update (fun _ => rfl) fun _ => rfl) fun _ =>
    .update (fun _ => rfl) fun _ => rfl) fun _ => envTurn_powerBlind.bind fun _ => .update (fun _ => rfl) fun _ => rfl

/-- From a panel on, a refresh that holds the lock goes alike in both power states. -/
theorem refreshBody_sameAt {r : Req} (hq : s.Quiet) (hs : s.pstate.HasPanel) (hp : p.HasPanel) :
    Act.SameAt p (refreshBody r s) (refreshBody r (s.setPState p)) := by
  rw [refreshBody_panel hs, refreshBody_panel (s := s.setPState p) hp]
  exact ((lineParts_powerBlind p).lineLoop _).bind (fun st => finishRefresh_powerBlind r st) s.begun hq

/-- Where one of two runs that go alike gives a next state, the other gives the same but for the power state. -/
theorem Act.SameAt.next {x : Act Unit} {s' : State} (h : Act.SameAt p (x s) (x s')) (ht : x.outcome s = .next t) :
    x.outcome s' = .next (t.setPState p) := by
  unfold Act.outcome at ht ⊢
  generalize x s = y, x s' = z at h ht
  cases h with
  | ok => cases ht; rfl
  | @error e =>
    cases e with
    | stuck => cases ht; rfl
    | reset => cases ht; rfl
    | refused r => cases ht
    | fault f => cases ht

/-- The request is refused, waits or is granted the lock in two power states with a panel alike. -/
theorem exec_refresh_setPState {r : Req} (hq : s.Quiet) (hw : s.waitq = []) (hs : s.pstate.HasPanel) (hp : p.HasPanel)
    (ht : exec (.refresh r) s = .next t) : exec (.refresh r) (s.setPState p) = .next (t.setPState p) := by
  have hd := headD_nil_of_quiet hq
  have hd' : (s.setPState p).during.headD [] = [] := hd
  by_cases hu : s.seq.unit = .init
  · rw [exec_refresh_refused (.inl hu)] at ht
    cases ht
  by_cases hl : s.lock = .free
  · rw [exec_refresh_free hd hu hs.not_initializing hl hw] at ht
    rw [exec_refresh_free hd' hu hp.not_initializing hl hw]
    exact (refreshBody_sameAt (s := s.grantedAlone r) (congrArg List.tail hq) hs hp).next ht
  · rw [exec_refresh_held hd hu hs.not_initializing hl] at ht
    rw [exec_refresh_held hd' hu hp.not_initializing hl]
    cases ht
    rfl

/-- Settles O44: `Active` and `Blanked` are two power states with a panel. -/
theorem refreshDoesNotLookAtBlanking : Obligations.RefreshDoesNotLookAtBlanking := fun s _ _ hq hw ht =>
  exec_refresh_setPState (s := { s with pstate := .active }) hq hw (.inl rfl) (.inr rfl) ht

end Sys2Proof.Machine
end

section
/-! SUPPORT. A refresh line by line with nothing arriving and any answers: what follows a line under either policy, and how
the refresh ends (43_refresh_coordinator.md R165 to R168). -/

namespace Sys2Proof.Machine

variable {s t u v : State} {line : BitVec 16} {n : Fin 240} {r : Req} {st : Status}

/-! ## From state to state, whatever the answers are -/

/-- An answer that is never given is not given after one answer either. -/
theorem Script.get_drop_one_ne {α : Type} {c : Script α} {a : α} (h : ∀ n, c.get n ≠ a) (n : Nat) :
    (c.drop 1).get n ≠ a :=
  Script.get_drop c 1 n ▸ h _

/-- From `s` the block went on to `t` as in `State.GoesTo`, the calls still to come return if they did, and the sampled
policy is the same. -/
structure State.RunsTo (s : State) (es : List Event) (t : State) : Prop extends s.GoesTo es t where
  returns : s.Returns → t.Returns
  policyS : t.policyS = s.policyS

namespace State.RunsTo

theorem refl (s : State) : s.RunsTo [] s :=
  ⟨⟨rfl, id, id, id, rfl, rfl, rfl, (List.append_nil _).symm⟩, id, rfl⟩

theorem trans {ds es : List Event} (h : s.RunsTo ds t) (h' : t.RunsTo es v) : s.RunsTo (ds ++ es) v where
  toGoesTo := h.toGoesTo.trans h'.toGoesTo
  returns := h'.returns ∘ h.returns
  policyS := h'.policyS.trans h.policyS

theorem setStep (s : State) (p : SeqStep) : s.RunsTo [] (s.setStep p) := ⟨.setStep s p, fun h => { h with }, rfl⟩

theorem setResult (s : State) (st : Option Status) : s.RunsTo [] (s.setResult st) :=
  ⟨.setResult s st, fun h => { h with }, rfl⟩

theorem buffered (s : State) (line : BitVec 16) : s.RunsTo [] (s.buffered line) :=
  ⟨.buffered s line, fun h => { h with }, rfl⟩

theorem didWait (s : State) (d : Delay) : s.RunsTo [.wait d] (s.didWait d) :=
  ⟨.didWait s d, fun h => { h with wait := fun n => (Script.get_drop _ 1 n).trans (h.wait _) }, rfl⟩

theorem gapWaited (s : State) : s.RunsTo [.wait .interLine] s.gapWaited := (setStep s _).trans (didWait _ _)

theorem answeredSet (s : State) (l : Line) (b : Bool) :
    s.RunsTo [setEvent l b (s.ctlAnswers.get 0)] (s.answeredSet l b) where
  during := rfl
  lines h := { h with ctl := fun n => (Script.get_drop _ 1 n).trans (h.ctl _) }
  tx := id
  grants := id
  fb := rfl
  pstate := rfl
  inFlight := rfl
  trace := rfl
  returns h := { h with ctl := Script.get_drop_one_ne h.ctl }
  policyS := rfl

theorem answeredTx (s : State) (bytes : List Byte) :
    s.RunsTo (txEvents bytes (s.txAnswers.get 0)) (s.answeredTx bytes) where
  during := rfl
  lines h := { h with }
  tx h n := (Script.get_drop _ 1 n).trans (h _)
  grants := id
  fb := rfl
  pstate := rfl
  inFlight := rfl
  trace := rfl
  returns h := { h with tx := Script.get_drop_one_ne h.tx }
  policyS := rfl

theorem didTx (s : State) (bytes : List Byte) : s.RunsTo [.tx bytes .ok] (s.didTx bytes) :=
  ⟨.didTx s bytes, fun h => { h with tx := Script.get_drop_one_ne h.tx }, rfl⟩

theorem asserted (s : State) (line : BitVec 16) :
    s.RunsTo [setEvent .chipSelect true (s.ctlAnswers.get 0)] (s.asserted line) :=
  (buffered s line).trans ((answeredSet _ _ _).trans (setStep _ _))

theorem headerDone (s : State) (line : BitVec 16) :
    s.RunsTo [setEvent .chipSelect true (s.ctlAnswers.get 0), .tx (headerBytes line) .ok] (s.headerDone line) :=
  (asserted s line).trans ((didTx _ _).trans (setStep _ _))

theorem lineClosed (s : State) : s.RunsTo [setEvent .chipSelect false (s.ctlAnswers.get 0)] s.lineClosed :=
  (setStep s .csDeassert).trans ((answeredSet _ _ _).trans (setResult _ _))

end State.RunsTo

/-! ## The reads of a line -/

/-- Line `n` of a refresh once it has been read (43_refresh_coordinator.md R165). -/
def State.lineRead (s : State) (n : Fin 240) : State :=
  State.encoded { (s.setLn n).setStep .encode with px := [] } n 0

theorem State.lineRead_lb (s : State) (n : Fin 240) : (s.lineRead n).lb = rowPayload s.fb n := encoded_lb _ _ _

theorem State.lineRead_grants (s : State) (n : Fin 240) : (s.lineRead n).grants = s.grants := by
  rw [State.lineRead, State.encoded, State.setStep, State.setLn]

theorem State.lineRead_txAnswers (s : State) (n : Fin 240) : (s.lineRead n).txAnswers = s.txAnswers := by
  rw [State.lineRead, State.encoded, State.setStep, State.setLn]

theorem State.RunsTo.lineRead (s : State) (n : Fin 240) : s.RunsTo (rowEvents s.fb n) (s.lineRead n) where
  during := rfl
  lines h := { h with rd := fun k => (Script.get_drop _ _ k).trans (h.rd _) }
  tx := id
  grants := id
  fb := rfl
  pstate := rfl
  inFlight := rfl
  trace := rfl
  returns h := { h with rd := fun k => (Script.get_drop _ _ k).trans (h.rd _) }
  policyS := rfl

/-- A line of the loop is its reads, SEND_LINE and what follows (43_refresh_coordinator.md R165). -/
theorem lineLoop_cons_read (hq : s.Quiet) (hr : ∀ k, s.rdAnswers.get k = true) (ns : List (Fin 240)) :
    lineLoop (n :: ns) s =
      (sendLine (BitVec.ofNat 16 n) >>= fun st => afterLine st (lineLoop ns)) (s.lineRead n) := by
  rw [lineLoop, Act.update_bind_apply]
  exact Act.bind_ok (encodeRow_quiet (s := (s.setLn n).setStep .encode) n.isLt hq fun k _ => hr k)

/-! ## After a line -/

theorem afterLine_goes_on (he : endsRefresh s.policyS st = false) (hq : s.Quiet) (hw : s.waitAnswers.get 0 = true)
    (rest : Act Status) : afterLine st rest s = rest s.gapWaited := by
  rw [afterLine, Act.read_bind_apply, he]
  exact Act.bind_ok (wait_did (s := s.setStep .gap) hq hw)

theorem afterLine_ends (he : endsRefresh s.policyS st = true) (rest : Act Status) : afterLine st rest s = .ok st s := by
  rw [afterLine, Act.read_bind_apply, he]
  rfl

/-! ## SEND_LINE with any answers -/

section Granted

variable (hq : s.Quiet) (hl : line.toNat < 240) (hg : s.grants.get 0 = true) (hc : s.ctlAnswers.get 0 ≠ .never)
include hq hl hg hc

/-- A line whose header call fails after `j` bytes (41_line_framer.md R126). -/
theorem sendLine_headerFails {j : Nat} (hc' : s.ctlAnswers.get 1 ≠ .never) (hx : s.txAnswers.get 0 = .fail j) :
    ∃ u, sendLine line s = .ok .transportFailure u ∧ u.grants = s.grants.drop 1 ∧
      s.RunsTo [setEvent .chipSelect true (s.ctlAnswers.get 0), .tx (headerBytes line) (.fail (min j 7)),
        setEvent .chipSelect false (s.ctlAnswers.get 1)] u := by
  have htx := State.RunsTo.answeredTx (s.asserted line) (headerBytes line)
  rw [show (s.asserted line).txAnswers.get 0 = .fail j from hx] at htx
  rw [← get_ctlAnswers_asserted (line := line)] at hc' ⊢
  exact ⟨_, (sendLine_headerFailed hq hl hg hc hx).trans (closeLine_answered hq hc'), rfl,
    (State.RunsTo.asserted s line).trans (htx.trans (.lineClosed _))⟩

/-- A line whose header is sent, whatever its payload call answers (41_line_framer.md R126, R129). -/
theorem sendLine_payloadReturns (hc' : s.ctlAnswers.get 1 ≠ .never) (hx : s.txAnswers.get 0 = .ok)
    (hx' : s.txAnswers.get 1 ≠ .never) :
    ∃ u, sendLine line s = .ok (lineStatus true (decide (s.txAnswers.get 1 = .ok))) u ∧ u.grants = s.grants.drop 1 ∧
      s.RunsTo ([setEvent .chipSelect true (s.ctlAnswers.get 0), .tx (headerBytes line) .ok] ++
        (txEvents s.lb (s.txAnswers.get 1) ++ [setEvent .chipSelect false (s.ctlAnswers.get 1)])) u := by
  have htx := State.RunsTo.answeredTx (s.headerDone line) s.lb
  rw [get_txAnswers_headerDone] at htx
  rw [← get_ctlAnswers_asserted (line := line)] at hc' ⊢
  exact ⟨_, (sendLine_payloadAnswered hq hl hg hc hx hx').trans (closeLine_answered hq hc'), rfl,
    (State.RunsTo.headerDone s line).trans (htx.trans (.lineClosed _))⟩

end Granted

/-- A line without a buffer (41_line_framer.md R122). -/
theorem sendLine_withoutBuffer (hl : line.toNat < 240) (hg : s.grants.get 0 = false) :
    ∃ u, sendLine line s = .ok .resourceExhausted u ∧ u.grants = s.grants.drop 1 ∧ s.RunsTo [] u :=
  ⟨_, sendLine_notGranted hl hg, rfl, ⟨rfl, fun h => { h with }, id, fun h n => (Script.get_drop _ 1 n).trans (h _),
    rfl, rfl, rfl, (List.append_nil _).symm⟩, fun h => { h with }, rfl⟩

/-- A line whose every answer is `ok` sends its frame. -/
theorem sendLine_sent (hq : s.Quiet) (hlines : s.LinesAnswerOk) (hl : line.toNat < 240) (hg : s.grants.get 0 = true)
    (hx : s.txAnswers.get 0 = .ok) (hx' : s.txAnswers.get 1 = .ok) :
    sendLine line s = .ok .ok (s.buffered line).frameSent := by
  have h₁ : envTurn (s.buffered line) = .ok () _ := envTurn_quiet hq
  have h₂ : envTurn (((s.buffered line).didSet .chipSelect true).setStep .txHeader) = .ok () _ := envTurn_quiet hq
  have h₃ : envTurn ((((s.buffered line).didSet .chipSelect true).didTx (headerBytes line)).setStep .txPayload) =
    .ok () _ := envTurn_quiet hq
  exact (sendLine_of_envTurns hl hg h₁ (hlines.ctl 0) h₂ hx h₃ ((Script.get_drop _ 1 0).trans hx') hq
    ((Script.get_drop _ 1 0).trans (hlines.ctl 1))).trans rfl

/-! ## Under `BestEffort` -/

theorem countP_rowEvents {p : Event → Bool} (hp : ∀ a w, p (.rd a w) = false) (m : Memory) (y : Nat) :
    (rowEvents m y).countP p = 0 := by
  simp [rowEvents, List.countP_eq_zero, hp]

/-- SEND_LINE when every call returns: no delay, and an assert exactly if a buffer is granted
(41_line_framer.md R122, R127). -/
theorem sendLine_returns (hq : s.Quiet) (hr : s.Returns) (hl : line.toNat < 240) :
    ∃ st u es, sendLine line s = .ok st u ∧ u.grants = s.grants.drop 1 ∧ s.RunsTo es u ∧
      es.countP Event.isGap = 0 ∧ es.countP Event.isAssert = if s.grants.get 0 then 1 else 0 := by
  cases hg : s.grants.get 0 with
  | false =>
    obtain ⟨u, hsend, hgr, hrun⟩ := sendLine_withoutBuffer hl hg
    exact ⟨_, u, _, hsend, hgr, hrun, rfl, rfl⟩
  | true =>
    cases hx : s.txAnswers.get 0 with
    | never => exact absurd hx (hr.tx 0)
    | fail j =>
      obtain ⟨u, hsend, hgr, hrun⟩ := sendLine_headerFails hq hl hg (hr.ctl 0) (hr.ctl 1) hx
      exact ⟨_, u, _, hsend, hgr, hrun, rfl, rfl⟩
    | ok =>
      obtain ⟨u, hsend, hgr, hrun⟩ := sendLine_payloadReturns hq hl hg (hr.ctl 0) (hr.ctl 1) hx (hr.tx 1)
      refine ⟨_, u, _, hsend, hgr, hrun, ?_⟩
      cases s.txAnswers.get 1 <;> exact ⟨rfl, rfl⟩

/-- One line under `BestEffort`, and the loop goes on (43_refresh_coordinator.md R166). -/
theorem lineLoop_cons_bestEffort (hq : s.Quiet) (hr : s.Returns) (hp : s.policyS = .bestEffort) (n : Fin 240)
    (ns : List (Fin 240)) :
    ∃ t es, lineLoop (n :: ns) s = lineLoop ns t ∧ t.grants = s.grants.drop 1 ∧ s.RunsTo es t ∧
      es.countP Event.isGap = 1 ∧ es.countP Event.isAssert = if s.grants.get 0 then 1 else 0 := by
  have hread := State.RunsTo.lineRead s n
  obtain ⟨st, u, es, hsend, hgr, hrun, hgap, hassert⟩ :=
    sendLine_returns (hread.quiet hq) (hread.returns hr) (toNat_lineIndex n)
  have hu := hread.trans hrun
  rw [State.lineRead_grants] at hgr hassert
  refine ⟨u.gapWaited, _, ?_, hgr, hu.trans (.gapWaited u), ?_, ?_⟩
  · rw [lineLoop_cons_read hq hr.rd, Act.bind_ok hsend]
    exact afterLine_goes_on (by rw [hu.policyS, hp]; rfl) (hu.quiet hq) ((hu.returns hr).wait 0) _
  · rw [List.countP_append, List.countP_append, countP_rowEvents (fun _ _ => rfl), hgap]
    rfl
  · rw [List.countP_append, List.countP_append, countP_rowEvents (fun _ _ => rfl), hassert, Nat.zero_add]
    rfl

/-- The line loop under `BestEffort`: one delay a line, and an assert for each buffer granted
(43_refresh_coordinator.md R166). -/
theorem lineLoop_bestEffort (ns : List (Fin 240)) (s : State) (hq : s.Quiet) (hr : s.Returns)
    (hp : s.policyS = .bestEffort) :
    ∃ t es, lineLoop ns s = .ok .ok t ∧ s.RunsTo es t ∧ es.countP Event.isGap = ns.length ∧
      es.countP Event.isAssert = (List.range ns.length).countP s.grants.get := by
  induction ns generalizing s with
  | nil => exact ⟨s, [], rfl, .refl s, rfl, rfl⟩
  | cons n ns ih =>
    obtain ⟨u, ds, hline, hgr, hrun, hgap, hassert⟩ := lineLoop_cons_bestEffort hq hr hp n ns
    obtain ⟨t, es, hloop, hrun', hgap', hassert'⟩ := ih u (hrun.quiet hq) (hrun.returns hr) (hrun.policyS.trans hp)
    refine ⟨t, ds ++ es, hline.trans hloop, hrun.trans hrun', ?_, ?_⟩
    · rw [List.countP_append, hgap, hgap', List.length_cons, Nat.add_comm]
    · have hshift : s.grants.get ∘ Nat.succ = u.grants.get := by
        funext k
        rw [hgr, Script.get_drop, Function.comp_apply, Nat.succ_eq_one_add]
      rw [List.countP_append, hassert, hassert', List.length_cons, List.range_succ_eq_map, List.countP_cons,
        List.countP_map, hshift, Nat.add_comm]

/-- The events of a refresh's end. -/
theorem returned_trace (t : State) (r : Req) (st : Status) :
    ((t.released r).returned r st).trace = t.trace ++ refreshClosing r st :=
  List.append_assoc _ _ _

/-- Settles O42: no line ends the loop. -/
theorem bestEffortRefreshReportsSuccess : Obligations.BestEffortRefreshReportsSuccess := by
  intro s r hq hp hu hl hw hc hpol hr
  have hr0 : (s.grantedAlone r).begun.Returns := { hr with }
  have hq0 : (s.grantedAlone r).begun.Quiet := congrArg List.tail hq
  obtain ⟨t, es, hloop, hrun, hgap, hassert⟩ := lineLoop_bestEffort (List.finRange Config.height) _ hq0 hr0 hpol
  rw [List.length_finRange] at hgap hassert
  refine ⟨_, es, exec_refresh_returns hq hp hu hl hw hloop (hrun.quiet hq0), ?_, rfl, rfl, rfl, hrun.pstate, hrun.fb,
    hrun.inFlight.trans hc, hgap, hassert⟩
  rw [returned_trace, hrun.trace]
  rfl

end Sys2Proof.Machine
end

section
/-! SUPPORT. A refresh under `FailFast`: lines that go well, and the first that does not (43_refresh_coordinator.md R167). -/

namespace Sys2Proof.Machine

variable {s v : State} {n : Fin 240} {r : Req} {st : Status} {es : List Event}

/-! ## Lines that go well -/

/-- A line whose answers are `ok` goes well, whatever the later ones are. -/
theorem lineLoop_cons_sent (hq : s.Quiet) (hlines : s.LinesAnswerOk) (hg : s.grants.get 0 = true)
    (hx : s.txAnswers.get 0 = .ok) (hx' : s.txAnswers.get 1 = .ok) (n : Fin 240) (ns : List (Fin 240)) :
    lineLoop (n :: ns) s = lineLoop ns (s.lineDone n) := by
  have hread := State.RunsTo.lineRead s n
  have hframe := (State.GoesTo.buffered (s.lineRead n) (BitVec.ofNat 16 n)).trans (.frameSent _)
  have hsend := sendLine_sent (hread.quiet hq) (hread.lines hlines) (toNat_lineIndex n)
    ((s.lineRead_grants n).symm ▸ hg) ((s.lineRead_txAnswers n).symm ▸ hx) ((s.lineRead_txAnswers n).symm ▸ hx')
  rw [lineLoop_cons_read hq hlines.rd, Act.bind_ok hsend, afterLine_goes_on (by simp [endsRefresh])
    (hframe.quiet (hread.quiet hq)) ((hframe.lines (hread.lines hlines)).wait 0)]
  exact congrArg _ (lineDone_eq s n)

/-- Lines that go well leave the loop to the lines after them. -/
theorem lineLoop_append_sent (ns ms : List (Fin 240)) (hq : s.Quiet) (hlines : s.LinesAnswerOk)
    (hg : ∀ k, k < ns.length → s.grants.get k = true) (hx : ∀ k, k < 2 * ns.length → s.txAnswers.get k = .ok) :
    lineLoop (ns ++ ms) s = lineLoop ms (ns.foldl State.lineDone s) := by
  induction ns generalizing s with
  | nil => rfl
  | cons n ns ih =>
    rw [List.length_cons] at hg hx
    have hdone := State.GoesTo.lineDone s n
    rw [List.cons_append, lineLoop_cons_sent hq hlines (hg 0 (by omega)) (hx 0 (by omega)) (hx 1 (by omega))]
    exact ih (hdone.quiet hq) (hdone.lines hlines)
      (fun k hk => (Script.get_drop _ 1 k).trans (hg _ (by omega)))
      (fun k hk => (Script.get_drop _ 2 k).trans (hx _ (by omega)))

/-! ## The first line that fails -/

/-- A line that ends under `FailFast` with an error ends the loop with it. -/
theorem lineLoop_stops {u : State} (hq : s.Quiet) (hlines : s.LinesAnswerOk) (hp : s.policyS = .failFast) (hst : st ≠ .ok)
    (hsend : sendLine (BitVec.ofNat 16 n) (s.lineRead n) = .ok st u) (hrun : (s.lineRead n).RunsTo es u)
    (ns : List (Fin 240)) : lineLoop (n :: ns) s = .ok st u := by
  have hpu : u.policyS = .failFast := hrun.policyS.trans ((State.RunsTo.lineRead s n).policyS.trans hp)
  rw [lineLoop_cons_read hq hlines.rd, Act.bind_ok hsend]
  exact afterLine_ends (by simp [hpu, endsRefresh, hst]) _

/-- The state in which line `k` of a refresh has been read, the lines before it having gone well. -/
def State.reached (s : State) (k : Fin 240) : State :=
  (((List.finRange 240).take k).foldl State.lineDone s).lineRead k

/-- What the block has then done, and the registers and answers that SEND_LINE of line `k` meets. -/
theorem reached_spec (s : State) (k : Fin 240) :
    s.GoesTo (linesEvents s.fb k ++ rowEvents s.fb k) (s.reached k) ∧ (s.reached k).lb = rowPayload s.fb k ∧
      (s.reached k).grants = s.grants.drop k ∧ (s.reached k).txAnswers = s.txAnswers.drop (2 * k) := by
  have hlen : ((List.finRange 240).take k).length = k := by simp
  have hdone : s.GoesTo (linesEvents s.fb k) (((List.finRange 240).take k).foldl State.lineDone s) :=
    { State.GoesTo.linesDone _ s with trace := by rw [foldl_lineDone, flatMap_lineEvents_take k.isLt.le] }
  have hread := (State.RunsTo.lineRead (((List.finRange 240).take k).foldl State.lineDone s) k).toGoesTo
  rw [hdone.fb] at hread
  refine ⟨hdone.trans hread, ?_, ?_, ?_⟩
  · rw [State.reached, State.lineRead_lb, hdone.fb]
  · rw [State.reached, State.lineRead_grants, foldl_lineDone, hlen]
  · rw [State.reached, State.lineRead_txAnswers, foldl_lineDone, hlen]

theorem foldl_lineDone_policyS (ns : List (Fin 240)) (s : State) : (ns.foldl State.lineDone s).policyS = s.policyS := by
  rw [foldl_lineDone]
  cases ns.getLast? <;> rfl

/-- The lines before line `k`, line `k`, and those after it. -/
theorem lines_split (k : Fin 240) :
    List.finRange 240 = (List.finRange 240).take k ++ k :: (List.finRange 240).drop (k + 1) := by
  have h := (List.take_append_drop k (List.finRange 240)).symm
  rwa [List.drop_eq_getElem_cons (by simp), List.getElem_finRange] at h

section FailFast

variable {k : Fin 240} (hq : s.Quiet) (hlines : s.LinesAnswerOk) (hg : ∀ n, n < k.val → s.grants.get n = true)
  (hx : ∀ n, n < 2 * k.val → s.txAnswers.get n = .ok)
include hq hlines hg hx

/-- The line loop ends at line `k` with its error. -/
theorem lineLoop_stopsAt {u : State} (hp : s.policyS = .failFast) (hst : st ≠ .ok)
    (hsend : sendLine (BitVec.ofNat 16 k) (s.reached k) = .ok st u) (hrun : (s.reached k).RunsTo es u) :
    lineLoop (List.finRange 240) s = .ok st u := by
  have hlen : ((List.finRange 240).take k).length = k := by simp
  have hdone := State.GoesTo.linesDone ((List.finRange 240).take k) s
  rw [lines_split k, lineLoop_append_sent _ _ hq hlines (by rwa [hlen]) (by rwa [hlen])]
  refine lineLoop_stops (hdone.quiet hq) (hdone.lines hlines) ?_ hst hsend hrun _
  rw [foldl_lineDone_policyS, hp]

end FailFast

/-- A refresh under `FailFast` whose line `k` ends with an error, the lines before it having gone well
(43_refresh_coordinator.md R167, R168). -/
theorem exec_refresh_stopsAt {k : Fin 240} {u : State} (hq : s.Quiet) (hup : s.pstate.HasPanel)
    (hu : s.seq.unit = .idle) (hl : s.lock = .free) (hw : s.waitq = []) (hpol : s.policy = .failFast)
    (hlines : s.LinesAnswerOk) (hg : ∀ n, n < k.val → s.grants.get n = true)
    (hx : ∀ n, n < 2 * k.val → s.txAnswers.get n = .ok) (hst : st ≠ .ok)
    (hsend : sendLine (BitVec.ofNat 16 k) ((s.grantedAlone r).begun.reached k) = .ok st u)
    (hrun : ((s.grantedAlone r).begun.reached k).RunsTo es u) :
    ∃ t : State, exec (.refresh r) s = .next t ∧ t.status = st ∧ t.lock = .free ∧ t.seq.unit = .idle ∧
      t.trace = s.trace ++ refreshOpening r ++ linesEvents s.fb k ++ rowEvents s.fb k ++ es ++ refreshClosing r st := by
  have hq0 : (s.grantedAlone r).begun.Quiet := congrArg List.tail hq
  have hrun' := (reached_spec (s.grantedAlone r).begun k).1.trans hrun.toGoesTo
  have hloop := lineLoop_stopsAt hq0 { hlines with } hg hx hpol hst hsend hrun
  refine ⟨_, exec_refresh_returns hq hup hu hl hw hloop (hrun'.quiet hq0), rfl, rfl, rfl, ?_⟩
  rw [returned_trace, hrun'.trace]
  simp [State.begun, State.grantedAlone]

/-- The event of a payload call that fails after `j` bytes. -/
theorem txEvents_rowPayload_fail (m : Memory) (y j : Nat) :
    txEvents (rowPayload m y) (.fail j) = [.tx (rowPayload m y) (.fail (min j 152))] := by
  rw [txEvents, rowPayload_length]

/-- Settles O43: line `k` has no buffer, its header call fails, or its payload call does. -/
theorem failFastRefreshStopsAtTheFirstFailure : Obligations.FailFastRefreshStopsAtTheFirstFailure := by
  intro s r k j hq hup hu hl hw hpol hlines hk hg hx
  have stopsAt {st es u} := exec_refresh_stopsAt (r := r) (k := ⟨k, hk⟩) (st := st) (es := es) (u := u) hq hup hu hl hw
    hpol hlines hg hx
  obtain ⟨hto, hlb, hgrants, htx⟩ := reached_spec (s.grantedAlone r).begun ⟨k, hk⟩
  generalize (s.grantedAlone r).begun.reached ⟨k, hk⟩ = v at stopsAt hto hlb hgrants htx
  have hqv : v.Quiet := hto.quiet (congrArg List.tail hq)
  have hctl : ∀ n, v.ctlAnswers.get n = .ok := (hto.lines { hlines with }).ctl
  have hgv : v.grants.get 0 = s.grants.get k := by rw [hgrants]; exact Script.get_drop _ k 0
  have hxv (n : Nat) : v.txAnswers.get n = s.txAnswers.get (2 * k + n) := by rw [htx]; exact Script.get_drop _ (2 * k) n
  have hc (n : Nat) : v.ctlAnswers.get n ≠ .never := by rw [hctl]; nofun
  have hline := toNat_lineIndex ⟨k, hk⟩
  refine ⟨fun hgk => ?_, fun hgk hxk => ?_, fun hgk hxk hxk' => ?_⟩
  · obtain ⟨u, hsend, -, hrun⟩ := sendLine_withoutBuffer hline (hgv.trans hgk)
    simpa using stopsAt (by decide) hsend hrun
  · obtain ⟨u, hsend, -, hrun⟩ := sendLine_headerFails hqv hline (hgv.trans hgk) (hc 0) (hc 1) ((hxv 0).trans hxk)
    rw [hctl, hctl] at hrun
    exact stopsAt nofun hsend hrun
  · obtain ⟨u, hsend, -, hrun⟩ := sendLine_payloadReturns hqv hline (hgv.trans hgk) (hc 0) (hc 1) ((hxv 0).trans hxk)
      (by rw [hxv, hxk']; nofun)
    rw [hxv, hxk'] at hsend hrun
    rw [hctl, hctl, hlb, txEvents_rowPayload_fail] at hrun
    exact stopsAt nofun hsend hrun

end Sys2Proof.Machine
end

section
/-! SUPPORT. Calls that never return: the block inside each of them, and SEND_LINE inside each of its four, with nothing
arriving (60_exceptions.md R198; 10_state.md R35). -/

namespace Sys2Proof.Machine

variable {s t : State} {line : BitVec 16}

/-! ## Inside a call -/

/-- Inside a control-line call that never returns: no event of it, `CTL` unchanged (log 9). -/
def State.insideSet (s : State) (l : Line) (v : Bool) : State :=
  { s with ctlAnswers := s.ctlAnswers.drop 1, inFlight := some (.ctlSet l v) }

/-- Inside a transport call that never returns. -/
def State.insideTx (s : State) (bytes : List Byte) : State :=
  { s with txAnswers := s.txAnswers.drop 1, inFlight := some (.tx bytes) }

/-- Inside a frame-buffer read that never returns. -/
def State.insideRd (s : State) (a : Nat) : State :=
  { s with rdAnswers := s.rdAnswers.drop 1, inFlight := some (.rd a) }

/-- Inside a wait that never ends (log 19). -/
def State.insideWait (s : State) (d : Delay) : State :=
  { s with waitAnswers := s.waitAnswers.drop 1, inFlight := some (.wait d) }

theorem ctlSet_never {l : Line} {v : Bool} (hq : s.Quiet) (h : s.ctlAnswers.get 0 = .never) :
    ctlSet l v s = .error .stuck (s.insideSet l v) :=
  (ctlSet_quiet hq).trans (ctlSetNow_never h)

theorem tx_never {bytes : List Byte} (hq : s.Quiet) (h : s.txAnswers.get 0 = .never) :
    tx bytes s = .error .stuck (s.insideTx bytes) :=
  (tx_quiet hq).trans (txNow_never h)

theorem rd_never {a : Nat} (hq : s.Quiet) (ha : a + 3 < Config.fbBytes) (h : s.rdAnswers.get 0 = false) :
    rd a s = .error .stuck (s.insideRd a) :=
  (rd_quiet hq).trans (rdNow_never ha h)

theorem wait_never {d : Delay} (hq : s.Quiet) (h : s.waitAnswers.get 0 = false) :
    wait d s = .error .stuck (s.insideWait d) :=
  (wait_quiet hq).trans (waitNow_never h)

/-- A block that is stuck in a call is a next state (60_exceptions.md R198). -/
theorem Act.outcome_stuck {x : Act Unit} (h : x s = .error .stuck t) : x.outcome s = .next t := by
  rw [Act.outcome, h]

/-! ## SEND_LINE -/

theorem assertLine_never (hq : s.Quiet) (h : s.ctlAnswers.get 0 = .never) :
    assertLine s = .error .stuck (s.insideSet .chipSelect true) :=
  Act.bind_error (ctlSet_never hq h)

theorem sendHeader_never (hq : s.Quiet) (h : s.txAnswers.get 0 = .never) :
    sendHeader s = .error .stuck (s.insideTx s.hdr) := by
  rw [sendHeader, Act.read_bind_apply]
  exact Act.bind_error (tx_never hq h)

theorem sendPayload_never (hq : s.Quiet) (h : s.txAnswers.get 0 = .never) :
    sendPayload s = .error .stuck (s.insideTx s.lb) := by
  rw [sendPayload, Act.read_bind_apply]
  exact Act.bind_error (tx_never hq h)

/-- The status is decided before the deassert (41_line_framer.md R129) and stays a local while that call hangs
(log 8). -/
theorem closeLine_never {r1 r2 : Bool} (hq : s.Quiet) (h : s.ctlAnswers.get 0 = .never) :
    closeLine r1 r2 s =
      .error .stuck (((s.setStep .csDeassert).setResult (some (lineStatus r1 r2))).insideSet .chipSelect false) := by
  rw [closeLine, Act.update_bind_apply, deassertLine]
  exact Act.bind_error (ctlSet_never (s := (s.setStep .csDeassert).setResult _) hq h)

/-- A SEND_LINE that is stuck sets nothing out for its invoker. -/
theorem exec_sendLine_never (h : sendLine line s = .error .stuck t) : exec (.sendLine line) s = .next t :=
  Act.outcome_stuck (Act.bind_error h)

/-- Settles O27: each call hangs in the state in which the calls before it have left the line. -/
theorem sendLineStaysInACallThatNeverReturns : Obligations.SendLineStaysInACallThatNeverReturns := by
  intro s line n hq hl hg
  refine ⟨fun hc => ?assert, fun hc hx => ?header, fun hc hx hx' => ?payload, fun hc hx hc' => ?failed,
    fun hc hx hx' hc' => ?sent⟩
  case assert =>
    exact exec_sendLine_never ((sendLine_granted hl hg).trans (assertLine_never (s := s.buffered line) hq hc))
  case header =>
    exact exec_sendLine_never ((sendLine_asserted hq hl hg hc).trans (sendHeader_never (s := s.asserted line) hq hx))
  case payload =>
    rw [← get_txAnswers_headerDone (line := line)] at hx'
    rw [exec_sendLine_never ((sendLine_headerSent hq hl hg hc hx).trans (sendPayload_never hq hx'))]
    simp [State.insideTx, State.headerDone, State.asserted, State.buffered, State.answeredSet, State.didTx,
      State.setStep]
  case failed =>
    rw [← get_ctlAnswers_asserted (line := line)] at hc'
    rw [exec_sendLine_never ((sendLine_headerFailed hq hl hg hc hx).trans (closeLine_never hq hc'))]
    simp [State.insideSet, State.asserted, State.buffered, State.answeredSet, State.answeredTx, State.setStep,
      State.setResult, lineStatus, txEvents, hx, headerBytes]
  case sent =>
    rw [← get_ctlAnswers_asserted (line := line)] at hc'
    rw [exec_sendLine_never ((sendLine_payloadAnswered hq hl hg hc hx hx').trans (closeLine_never hq hc'))]
    simp [State.insideSet, State.headerDone, State.asserted, State.buffered, State.answeredSet, State.answeredTx,
      State.didTx, State.setStep, State.setResult, lineStatus]

end Sys2Proof.Machine
end

section
/-! SUPPORT. The other operations inside calls that never return: ENCODE_ROW, BLANK and UNBLANK, INIT and the delay of a
refresh, with nothing arriving (60_exceptions.md R198; 10_state.md R35). -/

namespace Sys2Proof.Machine

variable {s : State} {r : Req}

/-- The elements before `k`, `k`, and those after it. -/
theorem finRange_split {n : Nat} (k : Fin n) :
    List.finRange n = (List.finRange n).take k ++ k :: (List.finRange n).drop (k + 1) := by
  have h := (List.take_append_drop k (List.finRange n)).symm
  rwa [List.drop_eq_getElem_cons (by simp), List.getElem_finRange] at h

/-- The reads of some columns stop at the first if it never returns. -/
theorem readPixels_never {y : Nat} (hy : y < Config.height) (hq : s.Quiet) (h : s.rdAnswers.get 0 = false) (x : Fin 400)
    (xs : List (Fin 400)) : readPixels y (x :: xs) s = .error .stuck ((s.setPxi x).insideRd (pixelAddr y x)) := by
  rw [readPixels, Act.update_bind_apply]
  exact Act.bind_error (rd_never (s := s.setPxi x) hq (pixelAddr_inside hy x) h)

/-- ENCODE_ROW stops at the first read that never returns; the words sampled before it stay
(40_pixel_encoder.md R105). -/
theorem encodeRow_never {y : Nat} {k : Fin 400} (hy : y < 240) (hq : s.Quiet)
    (hr : ∀ n, n < k.val → s.rdAnswers.get n = true) (h : s.rdAnswers.get k = false) :
    encodeRow y s = .error .stuck
      (((State.didRead { s with px := [] } y ((List.finRange Config.width).take k)).setPxi k).insideRd
        (pixelAddr y k)) := by
  have hlen : ((List.finRange Config.width).take k).length = k := by simp [Config.width]
  have hbefore := readPixels_pauses hy ((List.finRange Config.width).take k) { s with px := [] }
    (fun n _ => by rw [hq]; rfl) (by rwa [hlen])
  rw [encodeRow, encodeFrom, Act.update_bind_apply, List.drop_zero]
  refine Act.bind_error ((congrArg (readPixels y · _) (finRange_split k)).trans ((readPixels_append hbefore).trans ?_))
  refine readPixels_never hy (by simp [State.didRead, hq]) ?_ k _
  simpa [State.didRead, hlen] using h

/-- With the display up, BLANK or UNBLANK is issued and then stays in its call (42_display_controller.md R149). -/
theorem blanking_never {op : BitVec 3} {v : Bool} {p : PState} (hp : s.pstate.HasPanel) (hu : s.seq.unit ≠ .init)
    (hc : s.ctlAnswers.get 0 = .never) :
    blanking r op v p s = .error .stuck ((s.emit (.cmd r op)).insideSet .displayEnable v) := by
  have hup : (s.emit (.cmd r op)).pstate.isUp = true := PState.isUp_iff.2 hp
  rw [blanking, Act.bind_ok (issue_accepted hu hp.not_initializing), Act.read_bind_apply, if_pos hup]
  exact Act.bind_error (ctlSetNow_never (s := s.emit (.cmd r op)) hc)

/-- A settling wait that never ends keeps INIT there, its two calls before it answered `ok` (42_display_controller.md
R142). -/
theorem exec_init_settle_never (hq : s.Quiet) (hp : s.pstate = .uninitialized) (hu : s.seq.unit = .idle)
    (hc : ∀ n, n < 2 → s.ctlAnswers.get n = .ok) (h : s.waitAnswers.get 0 = false) :
    exec (.init r) s = .next ((s.initReached r [.modeSelectLow, .displayLow] .settle).insideWait .settle) := by
  have hw : (s.initBegun r).InitGoesWell [.modeSelectLow, .displayLow] := ⟨hc, nofun, nofun⟩
  have hsteps := initSequence_append r InitStep.settle.onward _ (s.initBegun r) hq hw
  have hsettle : initStep .settle (s.initReached r [.modeSelectLow, .displayLow] .settle) = .error .stuck _ :=
    Act.bind_error (wait_never hq h)
  rw [exec_init_accepted hp hu]
  refine Act.outcome_stuck (hsteps.trans ?_)
  exact (Act.update_bind_apply _ _ _).trans (Act.bind_error hsettle)

/-- A line is sent, its calls answered `ok`, and the delay after it never ends (43_refresh_coordinator.md R165). -/
theorem sendLine_gap_never {line : BitVec 16} (hq : s.Quiet) (hl : line.toNat < 240) (hg : s.grants.get 0 = true)
    (hc : ∀ k, s.ctlAnswers.get k = .ok) (hx : ∀ k, s.txAnswers.get k = .ok) (h : s.waitAnswers.get 0 = false)
    (rest : Act Status) :
    (sendLine line >>= fun st => afterLine st rest) s =
      .error .stuck (((s.headerDone line).payloadSent.setStep .gap).insideWait .interLine) := by
  have hpayload := sendPayload_of_envTurn (s := s.headerDone line) (envTurn_quiet hq)
    (get_txAnswers_headerDone.trans (hx 1)) hq (get_ctlAnswers_asserted.trans (hc 1))
  have hsend := (sendLine_headerSent hq hl hg (by rw [hc]; nofun) (hx 0)).trans hpayload
  rw [Act.bind_ok hsend, afterLine, Act.read_bind_apply, if_neg (by simp [endsRefresh]), Act.update_bind_apply]
  exact Act.bind_error (wait_never (s := (s.headerDone line).payloadSent.setStep .gap) hq h)

theorem State.lineRead_ctlAnswers (s : State) (n : Fin 240) : (s.lineRead n).ctlAnswers = s.ctlAnswers := by
  rw [State.lineRead, State.encoded, State.setStep, State.setLn]

theorem State.lineRead_waitAnswers (s : State) (n : Fin 240) : (s.lineRead n).waitAnswers = s.waitAnswers := by
  rw [State.lineRead, State.encoded, State.setStep, State.setLn]

theorem State.headerDone_lb (s : State) (line : BitVec 16) : (s.headerDone line).lb = s.lb := rfl

/-- The state in which the delay after line `n` begins, the line having been read and sent. -/
def State.lineSent (s : State) (n : Fin 240) : State :=
  ((s.lineRead n).headerDone (BitVec.ofNat 16 n)).payloadSent.setStep .gap

theorem State.lineSent_trace (hc : s.ctlAnswers.get 0 = .ok) (n : Fin 240) :
    (s.lineSent n).trace = s.trace ++ (rowEvents s.fb n ++ (frameEvents s.fb n).take 4) := by
  have hframe := (State.RunsTo.headerDone (s.lineRead n) (BitVec.ofNat 16 n)).toGoesTo.trans (.payloadSent _)
  have h := ((State.RunsTo.lineRead s n).toGoesTo.trans hframe).trace
  rwa [State.headerDone_lb, State.lineRead_lb, State.lineRead_ctlAnswers, hc] at h

/-- The line loop at a line after which the delay never ends. -/
theorem lineLoop_gap_never (hq : s.Quiet) (hc : ∀ k, s.ctlAnswers.get k = .ok) (hx : ∀ k, s.txAnswers.get k = .ok)
    (hr : ∀ k, s.rdAnswers.get k = true) (hg : s.grants.get 0 = true) (h : s.waitAnswers.get 0 = false) (n : Fin 240)
    (ns : List (Fin 240)) : lineLoop (n :: ns) s = .error .stuck ((s.lineSent n).insideWait .interLine) := by
  rw [lineLoop_cons_read hq hr]
  exact sendLine_gap_never ((State.RunsTo.lineRead s n).quiet hq) (toNat_lineIndex n)
    (by rwa [State.lineRead_grants]) (by rwa [State.lineRead_ctlAnswers]) (by rwa [State.lineRead_txAnswers])
    (by rwa [State.lineRead_waitAnswers]) _

/-- A refresh that meets no other request and whose first delay never ends holds the lock (43_refresh_coordinator.md
R162). -/
theorem exec_refresh_gap_never (hq : s.Quiet) (hp : s.pstate.HasPanel) (hu : s.seq.unit = .idle) (hl : s.lock = .free)
    (hw : s.waitq = []) (hc : ∀ k, s.ctlAnswers.get k = .ok) (hx : ∀ k, s.txAnswers.get k = .ok)
    (hr : ∀ k, s.rdAnswers.get k = true) (hg : s.grants.get 0 = true) (h : s.waitAnswers.get 0 = false) :
    exec (.refresh r) s = .next (((s.grantedAlone r).begun.lineSent 0).insideWait .interLine) := by
  have hq0 : (s.grantedAlone r).begun.Quiet := congrArg List.tail hq
  have hlines : List.finRange Config.height = 0 :: linesAfter 0 := lines_split 0
  rw [exec_refresh_free (headD_nil_of_quiet hq) (by rw [hu]; decide) hp.not_initializing hl hw]
  refine Act.outcome_stuck ((refreshBody_panel (s := s.grantedAlone r) hp).trans (Act.bind_error ?_))
  rw [hlines]
  exact lineLoop_gap_never hq0 hc hx hr hg h 0 _

/-- Settles O28, one clause for each kind of call. -/
theorem callsThatNeverReturnHoldTheBlock : Obligations.CallsThatNeverReturnHoldTheBlock := by
  refine ⟨fun s y k hy hq hr h => ?read, fun s hq h => ?clear, fun s r hp hu hc => ?blanking,
    fun s r hq hp hu hc h => ?settle, fun s r hq hp hu hl hw hc hx hr hg h => ?gap⟩
  case read =>
    refine (Act.outcome_stuck (encodeRow_never hy hq hr h)).trans ?_
    simp [State.insideRd, State.setPxi, State.didRead, rowWords_eq_map_columns, rowEvents_eq_map_columns, pixelAddr_eq,
      List.map_take, Config.width, k.isLt.le, hq]
  case clear => exact Act.outcome_stuck (Act.bind_error (tx_never hq h))
  case blanking => exact ⟨Act.outcome_stuck (blanking_never hp hu hc), Act.outcome_stuck (blanking_never hp hu hc)⟩
  case settle =>
    rw [exec_init_settle_never hq hp hu hc h]
    simp [State.insideWait, State.initReached, State.initBegun, State.initStepsDone, State.emit, State.setUnit,
      State.setStep, lineCalls, InitStep.lineCall, InitStep.isWait, InitStep.event, Ctl.afterStep, Ctl.set]
  case gap =>
    refine ⟨_, exec_refresh_gap_never hq hp hu hl hw hc hx hr (hg 0) h, rfl, rfl, rfl, rfl, ?_⟩
    rw [State.insideWait, State.lineSent_trace (s := (s.grantedAlone r).begun) (hc 0)]
    simp [State.begun, State.grantedAlone]

end Sys2Proof.Machine
end

section
/-! SUPPORT. A block that is stuck in a call: what may arrive there, and what it leaves (60_exceptions.md R198). -/

namespace Sys2Proof.Machine

variable {s t : State}

/-- From `s` to `t` the environment alone has acted, with the events `es`: the block's registers, lines, lock, sequencer
and locals are the same, and so is its call (log 9). -/
def State.Receives (s : State) (es : List Event) (t : State) : Prop :=
  ∃ fb waitq policy port,
    t = { s with fb := fb, waitq := waitq, policy := policy, port := port, trace := s.trace ++ es }

theorem State.Receives.silent {fb : Memory} {waitq : List (Req × WaitOp)} {policy : Policy}
    {port : List (Option Input)} :
    s.Receives [] { s with fb := fb, waitq := waitq, policy := policy, port := port } :=
  ⟨fb, waitq, policy, port, by rw [List.append_nil]⟩

/-- The events of what may arrive at a stuck block: none, a command issued, or a producer's byte
(60_exceptions.md R198). -/
def ReceivedEvents (es : List Event) : Prop :=
  es = [] ∨ (∃ r op, es = [.cmd r op]) ∨ ∃ a b, es = [.wr a b]

/-- A composition whose first part ends well ends where the second part ends. -/
theorem Act.final_bind_ok {α β : Type} {x : Act α} {f : α → Act β} {a : α} (h : x s = .ok a t) :
    (x >>= f).final s = (f a).final t := by
  rw [Act.final, Act.bind_ok h, Act.final]

/-- A command at a stuck block is recorded, and waits if it is a REFRESH or a DETACH; during INIT it is refused (log 9,
log 10). -/
theorem stuckInput_cmd_receives (s : State) (r : Req) (op : BitVec 3) :
    ∃ es, ReceivedEvents es ∧ s.Receives es ((stuckInput (.cmd r op)).final s) := by
  rw [stuckInput]
  by_cases hi : s.seq.unit = .init ∨ s.pstate = .initializing
  · rw [Act.final, Act.bind_error (issue_refused hi)]
    exact ⟨[], .inl rfl, .silent⟩
  · obtain ⟨hu, hp⟩ := not_or.1 hi
    rw [Act.final_bind_ok (issue_accepted hu hp)]
    refine ⟨[.cmd r op], .inr (.inl ⟨r, op, rfl⟩), ?_⟩
    split
    · exact ⟨_, _, _, _, rfl⟩
    · exact ⟨_, _, _, _, rfl⟩
    · exact ⟨_, _, _, _, rfl⟩

/-- A producer's byte at a stuck block is written and recorded if it falls inside the buffer (20_memory.md R57). -/
theorem stuckInput_wr_receives (s : State) (a : Nat) (b : Byte) :
    ∃ es, ReceivedEvents es ∧ s.Receives es ((stuckInput (.wr a b)).final s) := by
  rw [Act.final, stuckInput, produceByte_apply]
  by_cases ha : a < Config.fbBytes
  · rw [if_pos ha]
    exact ⟨[.wr a b], .inr (.inr ⟨a, b, rfl⟩), _, _, _, _, rfl⟩
  · rw [if_neg ha]
    exact ⟨[], .inl rfl, .silent⟩

theorem stuckInput_receives (s : State) {i : Input} (hi : i.isNoReset = true) :
    ∃ es, ReceivedEvents es ∧ s.Receives es ((stuckInput i).final s) := by
  cases i with
  | cmd r op => exact stuckInput_cmd_receives s r op
  | wr a b => exact stuckInput_wr_receives s a b
  | reset u => cases hi
  | policy p => exact ⟨[], .inl rfl, .silent⟩
  | answer k => exact ⟨[], .inl rfl, .silent⟩
  | putOff => exact ⟨[], .inl rfl, .silent⟩

/-- Without a reset at the port, a step of a stuck block is at most one input. -/
theorem stuckStep_receives (hr : s.noResetAtPort = true) (ht : stuckStep s = .next t) :
    ∃ es, ReceivedEvents es ∧ s.Receives es t := by
  unfold stuckStep at ht
  split at ht
  next x rest hport =>
    rw [State.noResetAtPort, hport] at hr
    obtain ⟨es, hes, h⟩ := stuckInput_receives { s with port := rest } hr
    rw [Act.outcome_next ht]
    exact ⟨es, hes, h⟩
  · cases ht
    exact ⟨[], .inl rfl, .silent⟩
  · cases ht
    exact ⟨[], .inl rfl, .silent⟩

theorem step_stuck {c : Call} (hc : s.inFlight = some c) : step s = stuckStep s := by
  rw [step, hc]
  rfl

/-- Settles O60: the environment alone acts, and leaves all that the statement names. -/
theorem stuckBlockTakesNoStep : Obligations.StuckBlockTakesNoStep := by
  intro s t c hc hr ht
  rw [step_stuck hc] at ht
  obtain ⟨es, hes, fb, waitq, policy, port, rfl⟩ := stuckStep_receives hr ht
  refine ⟨hc, rfl, rfl, rfl, rfl, rfl, rfl, rfl, rfl, rfl, rfl, ?_⟩
  obtain rfl | ⟨r, op, rfl⟩ | ⟨a, b, rfl⟩ := hes
  · exact .inl (List.append_nil _)
  · exact .inr (.inl ⟨r, op, rfl⟩)
  · exact .inr (.inr ⟨a, b, rfl⟩)

end Sys2Proof.Machine
end

section
/-! SUPPORT. Resets: one that meets an idle or a stuck block, and one in the middle of a line
(70_reset_and_hazards.md R210, R211). -/

namespace Sys2Proof.Machine

variable {s t : State} {u : Scratch} {tr : List Event} {line : BitVec 16}

/-! ## At the port -/

theorem applyInput_reset (s : State) (u : Scratch) : applyInput (.reset u) s = .error .reset (s.resetTo u) := rfl

/-- An operation that a reset abandons ends in a next state (70_reset_and_hazards.md R210). -/
theorem Act.outcome_reset {x : Act Unit} (h : x s = .error .reset t) : x.outcome s = .next t := by
  rw [Act.outcome, h]

theorem step_stuck_reset {rest : List (Option Input)} (hc : s.inFlight ≠ none)
    (hp : s.port = some (.reset u) :: rest) : step s = .next ({ s with port := rest }.resetTo u) := by
  obtain ⟨c, hc⟩ := Option.ne_none_iff_exists'.1 hc
  rw [step_stuck hc, stuckStep, hp]
  rfl

theorem step_idle_reset {rest : List (Option Input)} (hc : s.inFlight = none) (ho : s.ordered = none)
    (hu : s.seq.unit = .idle) (hp : s.port = some (.reset u) :: rest) :
    step s = .next ({ s with port := rest }.resetTo u) := by
  rw [step_idle hc ho hu, idleStep, hp]
  exact Act.outcome_reset (applyInput_reset _ u)

/-- Settles O58: the block, idle or stuck, does the reset operation and nothing else. -/
theorem resetInputEmitsNoEvent : Obligations.ResetInputEmitsNoEvent := by
  intro s u rest hs hp
  have hstep : step s = .next ({ s with port := rest }.resetTo u) := by
    by_cases hc : s.inFlight = none
    · obtain ⟨hu, ho⟩ := hs.resolve_left (not_not_intro hc)
      exact step_idle_reset hc ho hu hp
    · exact step_stuck_reset hc hp
  have hinv := State.resetTo_inv { s with port := rest } u
  exact ⟨_, hstep, rfl, rfl, rfl, rfl, rfl, rfl, rfl, rfl, rfl, rfl, rfl, rfl, hinv.lb, hinv.hdr, hinv.fb⟩

/-! ## Inside an operation -/

/-- A reset is scheduled just before the block's event number `k` from now, events counted from 0, and nothing else is
(log 4). -/
def State.ResetAt (s : State) (u : Scratch) (k : Nat) : Prop := s.during = List.replicate k [] ++ [[.reset u]]

/-- The result is that of an action which a reset ended when the trace was `tr`. -/
inductive Act.ResetAfter {α : Type} (u : Scratch) (tr : List Event) : EStateM.Result Stop State α → Prop where
  | mk (t : State) (h : t.trace = tr) : ResetAfter u tr (.error .reset (t.resetTo u))

theorem Act.ResetAfter.bind {α β : Type} {x : Act α} (h : Act.ResetAfter u tr (x s)) (f : α → Act β) :
    Act.ResetAfter u tr ((x >>= f) s) := by
  generalize hx : x s = r at h
  obtain ⟨t, ht⟩ := h
  rw [Act.bind_error hx]
  exact .mk t ht

theorem Act.ResetAfter.outcome {x : Act Unit} (h : Act.ResetAfter u tr (x s)) :
    ∃ t : State, x.outcome s = .next (t.resetTo u) ∧ t.trace = tr := by
  generalize hx : x s = r at h
  obtain ⟨t, ht⟩ := h
  exact ⟨t, Act.outcome_reset hx, ht⟩

theorem State.ResetAt.envTurn {k : Nat} (h : s.ResetAt u (k + 1)) : envTurn s = .ok () s.nextSlot :=
  envTurn_headD_nil (by rw [h]; rfl)

theorem State.ResetAt.nextSlot {k : Nat} (h : s.ResetAt u (k + 1)) : s.nextSlot.ResetAt u k := congrArg List.tail h

/-- The reset comes before the event, so the trace does not grow (70_reset_and_hazards.md R210). -/
theorem envTurn_reset (h : s.ResetAt u 0) : Act.ResetAfter u s.trace (envTurn s) := by
  rw [envTurn_slot h]
  exact .mk s.nextSlot rfl

/-! ## The positions of a line, with an empty slot before the next call -/

theorem assertLine_answered_of_envTurn (h : envTurn s = .ok () t) (hc : t.ctlAnswers.get 0 ≠ .never) :
    assertLine s = sendHeader ((t.answeredSet .chipSelect true).setStep .txHeader) :=
  Act.bind_ok ((Act.bind_ok h).trans (ctlSetNow_answers hc))

theorem tx_answered_of_envTurn {bytes : List Byte} (h : envTurn s = .ok () t) (hx : t.txAnswers.get 0 ≠ .never) :
    tx bytes s = .ok (decide (t.txAnswers.get 0 = .ok)) (t.answeredTx bytes) := by
  rw [State.answeredTx]
  cases ha : t.txAnswers.get 0 with
  | ok => exact (Act.bind_ok h).trans (txNow_ok ha)
  | fail n => exact (Act.bind_ok h).trans (txNow_fail ha)
  | never => exact absurd ha hx

theorem sendHeader_failed_of_envTurn {n : Nat} (h : envTurn s = .ok () t) (hx : t.txAnswers.get 0 = .fail n) :
    sendHeader s = closeLine false false (t.answeredTx s.hdr) := by
  rw [sendHeader, Act.read_bind_apply, Act.bind_ok (tx_answered_of_envTurn h (by rw [hx]; nofun)), hx]
  rfl

theorem sendPayload_answered_of_envTurn (h : envTurn s = .ok () t) (hx : t.txAnswers.get 0 ≠ .never) :
    sendPayload s = closeLine true (decide (t.txAnswers.get 0 = .ok)) (t.answeredTx s.lb) := by
  rw [sendPayload, Act.read_bind_apply]
  exact Act.bind_ok (tx_answered_of_envTurn h hx)

/-! ## A reset in the middle of a line -/

theorem closeLine_reset {r1 r2 : Bool} (h : s.ResetAt u 0) : Act.ResetAfter u s.trace (closeLine r1 r2 s) := by
  rw [closeLine, Act.update_bind_apply, deassertLine]
  exact ((envTurn_reset (s := (s.setStep .csDeassert).setResult _) h).bind _).bind _

theorem sendPayload_reset (h : s.ResetAt u 0) : Act.ResetAfter u s.trace (sendPayload s) := by
  rw [sendPayload, Act.read_bind_apply]
  exact ((envTurn_reset h).bind _).bind _

theorem sendHeader_reset (h : s.ResetAt u 0) : Act.ResetAfter u s.trace (sendHeader s) := by
  rw [sendHeader, Act.read_bind_apply]
  exact ((envTurn_reset h).bind _).bind _

theorem sendPayload_answered_reset (h : s.ResetAt u 1) (hx : s.txAnswers.get 0 ≠ .never) :
    Act.ResetAfter u (s.trace ++ txEvents s.lb (s.txAnswers.get 0)) (sendPayload s) := by
  rw [sendPayload_answered_of_envTurn h.envTurn hx]
  exact closeLine_reset (s := s.nextSlot.answeredTx s.lb) h.nextSlot

/-- Whether the header call answered `ok` or failed, the reset comes before what follows it. -/
theorem sendHeader_answered_reset (h : s.ResetAt u 1) (hx : s.txAnswers.get 0 ≠ .never) :
    Act.ResetAfter u (s.trace ++ txEvents s.hdr (s.txAnswers.get 0)) (sendHeader s) := by
  cases ha : s.txAnswers.get 0 with
  | ok =>
    rw [sendHeader_of_envTurn h.envTurn ha]
    exact sendPayload_reset (s := (s.nextSlot.didTx s.hdr).setStep .txPayload) h.nextSlot
  | fail n =>
    rw [sendHeader_failed_of_envTurn h.envTurn ha, ← ha]
    exact closeLine_reset (s := s.nextSlot.answeredTx s.hdr) h.nextSlot
  | never => exact absurd ha hx

theorem sendHeader_payloadAnswered_reset (h : s.ResetAt u 2) (hx : s.txAnswers.get 0 = .ok)
    (hx' : s.txAnswers.get 1 ≠ .never) :
    Act.ResetAfter u (s.trace ++ txEvents s.hdr .ok ++ txEvents s.lb (s.txAnswers.get 1)) (sendHeader s) := by
  have hget : ((s.nextSlot.didTx s.hdr).setStep .txPayload).txAnswers.get 0 = s.txAnswers.get 1 :=
    Script.get_drop _ 1 0
  rw [← hget] at hx' ⊢
  rw [sendHeader_of_envTurn h.envTurn hx]
  exact sendPayload_answered_reset (s := (s.nextSlot.didTx s.hdr).setStep .txPayload) h.nextSlot hx'

/-- The state in which the header call of a line is made, with an empty slot before the assert. -/
def State.assertedInSlot (s : State) (line : BitVec 16) : State :=
  ((s.buffered line).nextSlot.answeredSet .chipSelect true).setStep .txHeader

@[simp] theorem State.assertedInSlot_hdr : (s.assertedInSlot line).hdr = headerBytes line := rfl
@[simp] theorem State.assertedInSlot_lb : (s.assertedInSlot line).lb = s.lb := rfl
@[simp] theorem State.assertedInSlot_txAnswers : (s.assertedInSlot line).txAnswers = s.txAnswers := rfl
@[simp] theorem State.assertedInSlot_trace :
    (s.assertedInSlot line).trace = s.trace ++ [setEvent .chipSelect true (s.ctlAnswers.get 0)] := rfl

theorem sendLine_assertedInSlot {k : Nat} (h : s.ResetAt u (k + 1)) (hl : line.toNat < 240)
    (hg : s.grants.get 0 = true) (hc : s.ctlAnswers.get 0 ≠ .never) :
    sendLine line s = sendHeader (s.assertedInSlot line) :=
  (sendLine_granted hl hg).trans
    (assertLine_answered_of_envTurn (State.ResetAt.envTurn (s := s.buffered line) (u := u) (k := k) h) hc)

theorem State.ResetAt.assertedInSlot {k : Nat} (h : s.ResetAt u (k + 1)) (line : BitVec 16) :
    (s.assertedInSlot line).ResetAt u k := h.nextSlot

/-- A SEND_LINE that a reset abandons leaves the state of that reset. -/
theorem exec_sendLine_reset (h : Act.ResetAfter u tr (sendLine line s)) :
    ∃ t : State, exec (.sendLine line) s = .next (t.resetTo u) ∧ t.trace = tr :=
  (h.bind fun st => Act.update fun s => s.setResult (some st)).outcome

/-- Settles O59: after the assert the header call, what follows it, or the deassert finds the reset first. -/
theorem resetAbandonsALine : Obligations.ResetAbandonsALine := by
  intro s line u k hd hk1 hk3 hl hg hc hx hx'
  obtain ⟨j, rfl⟩ : ∃ j, k = j + 1 := ⟨k - 1, by omega⟩
  have hr := State.ResetAt.assertedInSlot hd line
  suffices h : Act.ResetAfter u (s.trace ++ [setEvent .chipSelect true (s.ctlAnswers.get 0)] ++
      (if 2 ≤ j + 1 then txEvents (headerBytes line) (s.txAnswers.get 0) else []) ++
      (if j + 1 = 3 then txEvents s.lb (s.txAnswers.get 1) else [])) (sendHeader (s.assertedInSlot line)) by
    rw [← sendLine_assertedInSlot hd hl hg hc] at h
    obtain ⟨t, ht, htr⟩ := exec_sendLine_reset h
    exact ⟨_, ht, htr, rfl, rfl, rfl, rfl, rfl, rfl⟩
  obtain rfl | rfl | rfl : j = 0 ∨ j = 1 ∨ j = 2 := by omega
  case inl => simpa using sendHeader_reset hr
  case inr.inl => simpa using sendHeader_answered_reset hr (hx le_rfl)
  case inr.inr =>
    obtain ⟨hok, hpay⟩ := hx' rfl
    simpa [hok] using sendHeader_payloadAnswered_reset hr hok hpay

end Sys2Proof.Machine
end
